-- ==== Sys2Proof/Word.lean ====
section
/-! DEFINITION. The word types of the CHIP-8 interpreter core and their plainest arithmetic.

All quantities of the machine are unsigned (spec 00 R7); arithmetic is on mathematical
integers and every reduction is explicit.
-/

namespace Sys2Proof

/-- A memory cell, a general register, a timer value, a framebuffer byte (00 R5). -/
abbrev Byte := BitVec 8

/-- `pc`, `I`, a stack entry, an instruction word (00 R5). -/
abbrev Word := BitVec 16

/-- A 4-bit field of the instruction word (30 R91). -/
abbrev Nibble := BitVec 4

/-- A register index `x` or `y`: a 4-bit field, so every index names a register (10 R21). -/
abbrev Reg := BitVec 4

/-- The 12-bit address field `nnn` (30 R91). -/
abbrev Addr := BitVec 12

/-- VF, register 15, the register the flag-writing instructions also write (10 R24). -/
abbrev vf : Reg := 15#4

end Sys2Proof
end

