-- ==== Sys2Proof/Syntax.lean ====
section
/-! DEFINITION. The instruction set: one constructor for each of the 34 rows of
spec/opcode_table.json (30 R95), each carrying the fields its format cuts from the word (30 R91,
R92).

A constructor also keeps the bits the decoder ignores (30 R97), as a last or only argument, so
that an `Instr` and the word it was decoded from determine each other: an error records the whole
word as `info = op` (60 R250), those bits included.
-/

namespace Sys2Proof

/-- The 34 instructions, in the order of the opcode table. -/
inductive Instr where
  /-- `00E0` (44 R213); `z` is the ignored `op[11:8]`. -/
  | clearScreen (z : Nibble)
  /-- `00EE` (41 R143); `z` is the ignored `op[11:8]`. -/
  | retFromSub (z : Nibble)
  /-- `1nnn` (41 R141). -/
  | jmp (nnn : Addr)
  /-- `2nnn` (41 R142). -/
  | jsr (nnn : Addr)
  /-- `3xkk` (41 R145). -/
  | skipEqImm (x : Reg) (kk : Byte)
  /-- `4xkk` (41 R146). -/
  | skipNeImm (x : Reg) (kk : Byte)
  /-- `5xy0` (41 R147); `z` is the ignored `op[3:0]`. -/
  | skipEqReg (x y : Reg) (z : Nibble)
  /-- `6xkk` (42 R160). -/
  | movImm (x : Reg) (kk : Byte)
  /-- `7xkk` (42 R161). -/
  | addImm (x : Reg) (kk : Byte)
  /-- `8xy0` (42 R162). -/
  | mov (x y : Reg)
  /-- `8xy1` (42 R163). -/
  | orReg (x y : Reg)
  /-- `8xy2` (42 R164). -/
  | andReg (x y : Reg)
  /-- `8xy3` (42 R165). -/
  | xorReg (x y : Reg)
  /-- `8xy4` (42 R166). -/
  | add (x y : Reg)
  /-- `8xy5` (42 R167). -/
  | sub (x y : Reg)
  /-- `8xy6` (42 R168); `y` is ignored (42 R175). -/
  | shr (x y : Reg)
  /-- `8xy7` (42 R169). -/
  | subn (x y : Reg)
  /-- `8xyE` (42 R170); `y` is ignored (42 R175). -/
  | shl (x y : Reg)
  /-- `9xy0` (41 R148); `z` is the ignored `op[3:0]`. -/
  | skipNeReg (x y : Reg) (z : Nibble)
  /-- `Annn` (43 R190). -/
  | movIndex (nnn : Addr)
  /-- `Bnnn` (41 R144). -/
  | jmpV0 (nnn : Addr)
  /-- `Cxkk` (42 R171). -/
  | rand (x : Reg) (kk : Byte)
  /-- `Dxyn` (44 R212). -/
  | draw (x y : Reg) (n : Nibble)
  /-- `Ex9E` (45 R230). -/
  | skipKeyPressed (x : Reg)
  /-- `ExA1` (45 R231). -/
  | skipKeyNotPressed (x : Reg)
  /-- `Fx07` (45 R233). -/
  | getDelay (x : Reg)
  /-- `Fx0A` (45 R232). -/
  | waitKey (x : Reg)
  /-- `Fx15` (45 R234). -/
  | setDelay (x : Reg)
  /-- `Fx18` (45 R235). -/
  | setSound (x : Reg)
  /-- `Fx1E` (43 R191). -/
  | addIndex (x : Reg)
  /-- `Fx29` (43 R192). -/
  | fontIndex (x : Reg)
  /-- `Fx33` (43 R193). -/
  | storeBcd (x : Reg)
  /-- `Fx55` (43 R194). -/
  | storeRegs (x : Reg)
  /-- `Fx65` (43 R195). -/
  | loadRegs (x : Reg)
  deriving DecidableEq, Repr

end Sys2Proof
end

