-- ==== Sys2Proof/WellFormed.lean ====
section
/-! DEFINITION. Well-formedness of instructions.

Every field of `Instr` is a bit vector of exactly the width the word gives it (30 R91), so no term
of `Instr` is out of range and each one is the decoding of exactly one word. What the spec still
distinguishes is the canonical encoding, "every ignored bit 0" (30 R97). A non-canonical instruction
RUNS, as the canonical one does (30 R97, log 8); it is a claim about canonical programs that needs
the check. The assembler emits canonical encodings but for the two-operand spellings of `shr` and
`shl`, which encode `y` (30 R100); R97 says that it emits no other. DESIGN CHOICE (log 18): the model
follows R100 there.
-/

namespace Sys2Proof

/-- The ignored bits are 0 (30 R97). -/
def Instr.canonical : Instr → Bool
  | .clearScreen z => z == 0
  | .retFromSub z => z == 0
  | .skipEqReg _ _ z => z == 0
  | .skipNeReg _ _ z => z == 0
  | .shr _ y => y == 0
  | .shl _ y => y == 0
  | .jmp _ => true
  | .jsr _ => true
  | .skipEqImm _ _ => true
  | .skipNeImm _ _ => true
  | .movImm _ _ => true
  | .addImm _ _ => true
  | .mov _ _ => true
  | .orReg _ _ => true
  | .andReg _ _ => true
  | .xorReg _ _ => true
  | .add _ _ => true
  | .sub _ _ => true
  | .subn _ _ => true
  | .movIndex _ => true
  | .jmpV0 _ => true
  | .rand _ _ => true
  | .draw _ _ _ => true
  | .skipKeyPressed _ => true
  | .skipKeyNotPressed _ => true
  | .getDelay _ => true
  | .waitKey _ => true
  | .setDelay _ => true
  | .setSound _ => true
  | .addIndex _ => true
  | .fontIndex _ => true
  | .storeBcd _ => true
  | .storeRegs _ => true
  | .loadRegs _ => true

end Sys2Proof
end

