-- ==== Sys2Proof/Decode.lean ====
section
/-! DEFINITION. The decoder (30 R94), total on every word and every list of bytes, rejecting by
name; the encoder, from the same table; the opcode table itself as masks and patterns (30 R95).
-/

namespace Sys2Proof

/-- Why a word is no instruction: the four families of 30 R98, and a byte list too short to hold a
word. -/
inductive InvalidReason where
  /-- Top nibble 0, low byte not E0 or EE. -/
  | zeroFamily
  /-- Top nibble 8, low nibble 8, 9, A, B, C, D or F. -/
  | aluFamily
  /-- Top nibble E, low byte not 9E or A1. -/
  | keyFamily
  /-- Top nibble F, low byte none of the nine sub-codes. -/
  | miscFamily
  /-- Fewer than two bytes were given. -/
  | truncated
  deriving DecidableEq, Repr

/-- The result of decoding; `Invalid` is a first-class result (30 R94). -/
inductive Decoded where
  | instr (i : Instr)
  | invalid (why : InvalidReason)
  deriving DecidableEq, Repr

/-- The instruction of a decode result, if there is one. -/
def Decoded.toInstr? : Decoded → Option Instr
  | .instr i => some i
  | .invalid _ => none

/-! ## Fields of the word (00 R8, 30 R91) -/

/-- `t = op[15:12]`, the primary dispatch key. -/
def fieldT (op : Word) : Nibble := op.extractLsb' 12 4

/-- `x = op[11:8]`. -/
def fieldX (op : Word) : Nibble := op.extractLsb' 8 4

/-- `y = op[7:4]`. -/
def fieldY (op : Word) : Nibble := op.extractLsb' 4 4

/-- `n = op[3:0]`. -/
def fieldN (op : Word) : Nibble := op.extractLsb' 0 4

/-- `kk = op[7:0]`. -/
def fieldKK (op : Word) : Byte := op.extractLsb' 0 8

/-- `nnn = op[11:0]`. -/
def fieldNNN (op : Word) : Addr := op.extractLsb' 0 12

/-! ## Decoding -/

/-- Secondary dispatch of top nibble 0, on the low byte (30 R94). -/
def decodeZero (op : Word) : Decoded :=
  if fieldKK op = 0xE0 then .instr (.clearScreen (fieldX op))
  else if fieldKK op = 0xEE then .instr (.retFromSub (fieldX op))
  else .invalid .zeroFamily

/-- Secondary dispatch of top nibble 8, on the low nibble (30 R94). -/
def decodeAlu (op : Word) : Decoded :=
  if fieldN op = 0x0 then .instr (.mov (fieldX op) (fieldY op))
  else if fieldN op = 0x1 then .instr (.orReg (fieldX op) (fieldY op))
  else if fieldN op = 0x2 then .instr (.andReg (fieldX op) (fieldY op))
  else if fieldN op = 0x3 then .instr (.xorReg (fieldX op) (fieldY op))
  else if fieldN op = 0x4 then .instr (.add (fieldX op) (fieldY op))
  else if fieldN op = 0x5 then .instr (.sub (fieldX op) (fieldY op))
  else if fieldN op = 0x6 then .instr (.shr (fieldX op) (fieldY op))
  else if fieldN op = 0x7 then .instr (.subn (fieldX op) (fieldY op))
  else if fieldN op = 0xE then .instr (.shl (fieldX op) (fieldY op))
  else .invalid .aluFamily

/-- Secondary dispatch of top nibble E, on the low byte (30 R94). -/
def decodeKey (op : Word) : Decoded :=
  if fieldKK op = 0x9E then .instr (.skipKeyPressed (fieldX op))
  else if fieldKK op = 0xA1 then .instr (.skipKeyNotPressed (fieldX op))
  else .invalid .keyFamily

/-- Secondary dispatch of top nibble F, on the low byte (30 R94, R96). -/
def decodeMisc (op : Word) : Decoded :=
  if fieldKK op = 0x07 then .instr (.getDelay (fieldX op))
  else if fieldKK op = 0x0A then .instr (.waitKey (fieldX op))
  else if fieldKK op = 0x15 then .instr (.setDelay (fieldX op))
  else if fieldKK op = 0x18 then .instr (.setSound (fieldX op))
  else if fieldKK op = 0x1E then .instr (.addIndex (fieldX op))
  else if fieldKK op = 0x29 then .instr (.fontIndex (fieldX op))
  else if fieldKK op = 0x33 then .instr (.storeBcd (fieldX op))
  else if fieldKK op = 0x55 then .instr (.storeRegs (fieldX op))
  else if fieldKK op = 0x65 then .instr (.loadRegs (fieldX op))
  else .invalid .miscFamily

/-- `Decode(op)` (30 R94): dispatch on the top nibble, then on the sub-code of families 0, 8, E
and F. -/
def decode (op : Word) : Decoded :=
  if fieldT op = 0x0 then decodeZero op
  else if fieldT op = 0x1 then .instr (.jmp (fieldNNN op))
  else if fieldT op = 0x2 then .instr (.jsr (fieldNNN op))
  else if fieldT op = 0x3 then .instr (.skipEqImm (fieldX op) (fieldKK op))
  else if fieldT op = 0x4 then .instr (.skipNeImm (fieldX op) (fieldKK op))
  else if fieldT op = 0x5 then .instr (.skipEqReg (fieldX op) (fieldY op) (fieldN op))
  else if fieldT op = 0x6 then .instr (.movImm (fieldX op) (fieldKK op))
  else if fieldT op = 0x7 then .instr (.addImm (fieldX op) (fieldKK op))
  else if fieldT op = 0x8 then decodeAlu op
  else if fieldT op = 0x9 then .instr (.skipNeReg (fieldX op) (fieldY op) (fieldN op))
  else if fieldT op = 0xA then .instr (.movIndex (fieldNNN op))
  else if fieldT op = 0xB then .instr (.jmpV0 (fieldNNN op))
  else if fieldT op = 0xC then .instr (.rand (fieldX op) (fieldKK op))
  else if fieldT op = 0xD then .instr (.draw (fieldX op) (fieldY op) (fieldN op))
  else if fieldT op = 0xE then decodeKey op
  else decodeMisc op

/-- An instruction word from its two bytes, the byte at the lower address being the more
significant (20 R60). -/
def wordOfBytes (hi lo : Byte) : Word := hi ++ lo

/-- The two bytes of a word, in the order they lie in memory (20 R60). -/
def bytesOfWord (op : Word) : List Byte := [op.extractLsb' 8 8, op.extractLsb' 0 8]

/-- The decoder on any bytes: one instruction and the bytes after it (30 R90). The spec decodes words
only. DESIGN CHOICE (log 20): fewer than two bytes are `truncated` and are given back; no step decodes
such a list. -/
def decodeBytes : List Byte → Decoded × List Byte
  | hi :: lo :: rest => (decode (wordOfBytes hi lo), rest)
  | [b] => (.invalid .truncated, [b])
  | [] => (.invalid .truncated, [])

/-! ## Encoding -/

/-- A word from its four nibbles, the first one being `op[15:12]` (30 R91). -/
def ofNibbles (t x y n : Nibble) : Word := t ++ x ++ y ++ n

/-- Formats XK and XS: `t`, `x`, `kk` (30 R92). -/
def ofXK (t x : Nibble) (kk : Byte) : Word := t ++ x ++ kk

/-- Format A: `t`, `nnn` (30 R92). -/
def ofA (t : Nibble) (nnn : Addr) : Word := t ++ nnn

/-- The word of an instruction (30 R95). -/
def encode : Instr → Word
  | .clearScreen z => ofXK 0x0 z 0xE0
  | .retFromSub z => ofXK 0x0 z 0xEE
  | .jmp nnn => ofA 0x1 nnn
  | .jsr nnn => ofA 0x2 nnn
  | .skipEqImm x kk => ofXK 0x3 x kk
  | .skipNeImm x kk => ofXK 0x4 x kk
  | .skipEqReg x y z => ofNibbles 0x5 x y z
  | .movImm x kk => ofXK 0x6 x kk
  | .addImm x kk => ofXK 0x7 x kk
  | .mov x y => ofNibbles 0x8 x y 0x0
  | .orReg x y => ofNibbles 0x8 x y 0x1
  | .andReg x y => ofNibbles 0x8 x y 0x2
  | .xorReg x y => ofNibbles 0x8 x y 0x3
  | .add x y => ofNibbles 0x8 x y 0x4
  | .sub x y => ofNibbles 0x8 x y 0x5
  | .shr x y => ofNibbles 0x8 x y 0x6
  | .subn x y => ofNibbles 0x8 x y 0x7
  | .shl x y => ofNibbles 0x8 x y 0xE
  | .skipNeReg x y z => ofNibbles 0x9 x y z
  | .movIndex nnn => ofA 0xA nnn
  | .jmpV0 nnn => ofA 0xB nnn
  | .rand x kk => ofXK 0xC x kk
  | .draw x y n => ofNibbles 0xD x y n
  | .skipKeyPressed x => ofXK 0xE x 0x9E
  | .skipKeyNotPressed x => ofXK 0xE x 0xA1
  | .getDelay x => ofXK 0xF x 0x07
  | .waitKey x => ofXK 0xF x 0x0A
  | .setDelay x => ofXK 0xF x 0x15
  | .setSound x => ofXK 0xF x 0x18
  | .addIndex x => ofXK 0xF x 0x1E
  | .fontIndex x => ofXK 0xF x 0x29
  | .storeBcd x => ofXK 0xF x 0x33
  | .storeRegs x => ofXK 0xF x 0x55
  | .loadRegs x => ofXK 0xF x 0x65

/-! ## The opcode table as masks and patterns (30 R95) -/

/-- A row of the opcode table: a word `op` is the row's instruction when `op &&& mask = pattern`. -/
structure OpcodeRow where
  mask : Word
  pattern : Word
  deriving DecidableEq, Repr

/-- Does the word match the row (30 R95)? -/
def OpcodeRow.hits (r : OpcodeRow) (op : Word) : Bool := op &&& r.mask == r.pattern

/-- The row of each instruction (30 R95). -/
def tableRow : Instr → OpcodeRow
  | .clearScreen _ => ⟨0xF0FF, 0x00E0⟩
  | .retFromSub _ => ⟨0xF0FF, 0x00EE⟩
  | .jmp _ => ⟨0xF000, 0x1000⟩
  | .jsr _ => ⟨0xF000, 0x2000⟩
  | .skipEqImm _ _ => ⟨0xF000, 0x3000⟩
  | .skipNeImm _ _ => ⟨0xF000, 0x4000⟩
  | .skipEqReg _ _ _ => ⟨0xF000, 0x5000⟩
  | .movImm _ _ => ⟨0xF000, 0x6000⟩
  | .addImm _ _ => ⟨0xF000, 0x7000⟩
  | .mov _ _ => ⟨0xF00F, 0x8000⟩
  | .orReg _ _ => ⟨0xF00F, 0x8001⟩
  | .andReg _ _ => ⟨0xF00F, 0x8002⟩
  | .xorReg _ _ => ⟨0xF00F, 0x8003⟩
  | .add _ _ => ⟨0xF00F, 0x8004⟩
  | .sub _ _ => ⟨0xF00F, 0x8005⟩
  | .shr _ _ => ⟨0xF00F, 0x8006⟩
  | .subn _ _ => ⟨0xF00F, 0x8007⟩
  | .shl _ _ => ⟨0xF00F, 0x800E⟩
  | .skipNeReg _ _ _ => ⟨0xF000, 0x9000⟩
  | .movIndex _ => ⟨0xF000, 0xA000⟩
  | .jmpV0 _ => ⟨0xF000, 0xB000⟩
  | .rand _ _ => ⟨0xF000, 0xC000⟩
  | .draw _ _ _ => ⟨0xF000, 0xD000⟩
  | .skipKeyPressed _ => ⟨0xF0FF, 0xE09E⟩
  | .skipKeyNotPressed _ => ⟨0xF0FF, 0xE0A1⟩
  | .getDelay _ => ⟨0xF0FF, 0xF007⟩
  | .waitKey _ => ⟨0xF0FF, 0xF00A⟩
  | .setDelay _ => ⟨0xF0FF, 0xF015⟩
  | .setSound _ => ⟨0xF0FF, 0xF018⟩
  | .addIndex _ => ⟨0xF0FF, 0xF01E⟩
  | .fontIndex _ => ⟨0xF0FF, 0xF029⟩
  | .storeBcd _ => ⟨0xF0FF, 0xF033⟩
  | .storeRegs _ => ⟨0xF0FF, 0xF055⟩
  | .loadRegs _ => ⟨0xF0FF, 0xF065⟩

/-- The rows of the control and immediate families. -/
def tableRowsPlain : List OpcodeRow :=
  [⟨0xF0FF, 0x00E0⟩, ⟨0xF0FF, 0x00EE⟩, ⟨0xF000, 0x1000⟩, ⟨0xF000, 0x2000⟩, ⟨0xF000, 0x3000⟩,
   ⟨0xF000, 0x4000⟩, ⟨0xF000, 0x5000⟩, ⟨0xF000, 0x6000⟩, ⟨0xF000, 0x7000⟩]

/-- The rows of family 8. -/
def tableRowsAlu : List OpcodeRow :=
  [⟨0xF00F, 0x8000⟩, ⟨0xF00F, 0x8001⟩, ⟨0xF00F, 0x8002⟩, ⟨0xF00F, 0x8003⟩, ⟨0xF00F, 0x8004⟩,
   ⟨0xF00F, 0x8005⟩, ⟨0xF00F, 0x8006⟩, ⟨0xF00F, 0x8007⟩, ⟨0xF00F, 0x800E⟩]

/-- The rows of families 9 to F. -/
def tableRowsHigh : List OpcodeRow :=
  [⟨0xF000, 0x9000⟩, ⟨0xF000, 0xA000⟩, ⟨0xF000, 0xB000⟩, ⟨0xF000, 0xC000⟩, ⟨0xF000, 0xD000⟩,
   ⟨0xF0FF, 0xE09E⟩, ⟨0xF0FF, 0xE0A1⟩, ⟨0xF0FF, 0xF007⟩, ⟨0xF0FF, 0xF00A⟩, ⟨0xF0FF, 0xF015⟩,
   ⟨0xF0FF, 0xF018⟩, ⟨0xF0FF, 0xF01E⟩, ⟨0xF0FF, 0xF029⟩, ⟨0xF0FF, 0xF033⟩, ⟨0xF0FF, 0xF055⟩,
   ⟨0xF0FF, 0xF065⟩]

/-- The 34 rows of the opcode table, in its order (30 R95). -/
def opcodeTable : List OpcodeRow := tableRowsPlain ++ tableRowsAlu ++ tableRowsHigh

/-! ## The host's reading of the opcode table -/

/-- The instruction the decoder reads from the word `w` of `nbits` bits, laid out as memory holds
it: the high byte at the lower address (20 R60). Bits of `w` at `nbits` and above are 0. -/
def decodeTableWord (nbits w : Nat) : Option Instr :=
  (decodeBytes (bytesOfWord (BitVec.ofNat 16 (w % 2 ^ nbits)))).1.toInstr?

end Sys2Proof
end

