-- ==== Sys2Proof/Config.lean ====
section
/-! DEFINITION. The parameters of the hardware (spec 00 R5) and the free values: what the
environment answers and how many timer ticks pass, which no rule fixes (10 R42).
-/

namespace Sys2Proof.Config

/-- `MEM_SIZE` (00 R5): bytes of memory, addresses 0x000 to 0xFFF. -/
abbrev memSize : Nat := 4096

/-- `FONT_BASE` (00 R5): first byte of the font table. -/
abbrev fontBase : Nat := 0x000

/-- `FONT_END` (00 R5): one past the last font byte. -/
abbrev fontEnd : Nat := 0x050

/-- `GLYPH_BYTES` (00 R5): bytes of one font glyph. -/
abbrev glyphBytes : Nat := 5

/-- `NGLYPHS` (00 R5): glyphs 0 to F, in order. -/
abbrev nGlyphs : Nat := 16

/-- `PROG_BASE` (00 R5): load address, reset pc, lowest writable address. -/
abbrev progBase : Nat := 0x200

/-- `LOAD_MAX` (00 R5): the longest image `Load` accepts. -/
abbrev loadMax : Nat := memSize - progBase

/-- `NREGS` (00 R5). -/
abbrev nRegs : Nat := 16

/-- `REG_BITS` (00 R5): width of a general register. -/
abbrev regBits : Nat := 8

/-- `PC_BITS` (00 R5): width of pc. -/
abbrev pcBits : Nat := 16

/-- `I_BITS` (00 R5): width of the index register. -/
abbrev iBits : Nat := 16

/-- `STACK_WIDTH` (00 R5): bits of a stack entry. -/
abbrev stackWidth : Nat := 16

/-- `TIMER_BITS` (00 R5): width of a timer's value. -/
abbrev timerBits : Nat := 8

/-- `STACK_DEPTH` (00 R5): entries of the call stack. -/
abbrev stackDepth : Nat := 16

/-- `INSN_BYTES` (00 R5): bytes of one instruction. -/
abbrev insnBytes : Nat := 2

/-- `NKEYS` (00 R5): keys 0 to 15. -/
abbrev nKeys : Nat := 16

/-- `TIMER_HZ` (00 R5): ticks a second; no rule depends on it (70 R312). -/
abbrev timerHz : Nat := 60

/-- `FB_WIDTH` (00 R5): framebuffer width in pixels, the spec's default (D1). DESIGN CHOICE
(log 1): the open parameter is fixed at its default. -/
abbrev fbWidth : Nat := 64

/-- `FB_HEIGHT` (00 R5): framebuffer height in pixels, the spec's default (D1). DESIGN CHOICE
(log 1). -/
abbrev fbHeight : Nat := 32

/-- `FB_WB` (00 R5): bytes of one framebuffer row. -/
abbrev fbWb : Nat := fbWidth / 8

/-- The first eight glyphs, 0 to 7 (10 R36). -/
def fontLow : List Byte :=
  [0xF0, 0x90, 0x90, 0x90, 0xF0,  0x20, 0x60, 0x20, 0x20, 0x70,
   0xF0, 0x10, 0xF0, 0x80, 0xF0,  0xF0, 0x10, 0xF0, 0x10, 0xF0,
   0x90, 0x90, 0xF0, 0x10, 0x10,  0xF0, 0x80, 0xF0, 0x10, 0xF0,
   0xF0, 0x80, 0xF0, 0x90, 0xF0,  0xF0, 0x10, 0x20, 0x40, 0x40]

/-- The last eight glyphs, 8 to F (10 R36). -/
def fontHigh : List Byte :=
  [0xF0, 0x90, 0xF0, 0x90, 0xF0,  0xF0, 0x90, 0xF0, 0x10, 0xF0,
   0xF0, 0x90, 0xF0, 0x90, 0x90,  0xE0, 0x90, 0xE0, 0x90, 0xE0,
   0xF0, 0x80, 0x80, 0x80, 0xF0,  0xE0, 0x90, 0x90, 0x90, 0xE0,
   0xF0, 0x80, 0xF0, 0x80, 0xF0,  0xF0, 0x80, 0xF0, 0x80, 0x80]

/-- `FONT[0..79]` (10 R36), the spec's default (D2). DESIGN CHOICE (log 2): the open parameter
is fixed at its default. -/
def font : List Byte := fontLow ++ fontHigh

/-- The shared word types have the widths of the parameters (00 R5): a general register and a timer
hold a `Byte`; pc, the index register and a stack entry hold a `Word`. -/
abbrev WidthsAgree : Prop :=
  Byte = BitVec regBits ∧ Byte = BitVec timerBits ∧
  Word = BitVec pcBits ∧ Word = BitVec iBits ∧ Word = BitVec stackWidth

/-- The constraint on the open parameters (00 R5, D1, D2): a configuration outside it is refused,
so no model of one exists. -/
abbrev Valid : Prop :=
  fbWidth % 8 = 0 ∧ 16 ≤ fbWidth ∧ 1 ≤ fbHeight ∧ font.length = fontEnd - fontBase

/-- FREE VALUE (log 3). How many ticks of the delay timer pass just before the interpreter step
numbered by the argument (60 R272). -/
opaque delayTicks : Nat → Nat

/-- FREE VALUE (log 3). How many ticks of the sound timer pass just before the interpreter step
numbered by the argument (60 R272). -/
opaque soundTicks : Nat → Nat

/-- FREE VALUE (log 4). The answer of `KeyPressed(k)` in the interpreter step numbered by the
first argument (60 R283). -/
opaque keyPressed : Nat → Nibble → Bool

/-- FREE VALUE (log 4). The answer of `NextKey()` in the interpreter step numbered by the
argument: none, or a key 0 to 15 (60 R284). -/
opaque nextKey : Nat → Option Nibble

/-- FREE VALUE (log 4). The answer of `Random(kk)` in the interpreter step numbered by the first
argument: any integer from 0 to `kk`, the bound being in its type (60 R285). -/
opaque randomDraw : Nat → (kk : Byte) → Fin (kk.toNat + 1)

end Sys2Proof.Config
end

