-- ==== Sys2Proof/Machine/State.lean ====
section
/-! DEFINITION. The architectural state (10 R20), its reset value (10 R43), and the reasons a step
can stop.

Nothing here can be altered later, so every operation on these types stands in Machine/Ops.lean.
-/

namespace Sys2Proof.Machine

/-- Why the machine stops. -/
inductive Fault where
  /-- Answered by `interpret` (Machine/Cycle.lean) on a core whose `STATUS.halted` is 1: `Step()`
  returns `Halted` and changes nothing until reset (40 R126, 60 R254, 93 U15). SAFE: the state in
  which it stopped is the last one; a claim about what the timers do afterwards is made about
  `tickDelay` and `tickSound`, which act on halted states too (log 5). -/
  | halted
  deriving DecidableEq, Repr

/-- Why the model gives a step no meaning. -/
inductive Refusal where
  /-- Answered by an arm of `exec` whose instruction has no meaning yet. SAFE: nothing is claimed
  of it. No arm of this model answers it. -/
  | notModelled (mnemonic : String)
  deriving DecidableEq, Repr

/-- The error causes (60 R250), but for code 0, "none". -/
inductive Cause where
  /-- Code 1: the word at pc is invalid (40 R123). -/
  | decodeError
  /-- Code 2, reserved: no word, state or input reports it (40 R128). -/
  | argumentArityError
  /-- Code 3: a call with 16 return addresses stacked (10 R31). -/
  | stackOverflow
  /-- Code 4: a return with an empty stack (10 R32). -/
  | stackUnderflow
  /-- Code 5: `font_index` of a value above 15 (43 R192). -/
  | invalidFontIndex
  /-- Code 6: an image longer than 3584 bytes; returned by `Load`, not recorded (60 R281). -/
  | loadOverflow
  /-- Code 7: an access or a fetch beyond 0xFFF (20 R68, R69, 40 R121). -/
  | memoryRangeFault
  /-- Code 8: an instruction write below 0x200 (20 R69). -/
  | writeProtectFault
  /-- Code 9: a key skip on a value above 15 (45 R236). -/
  | invalidKeyIndex
  deriving DecidableEq, Repr

/-- The `STATUS` register (10 R41), field by field. -/
structure Status where
  /-- 1 after a fatal error. -/
  halted : Bool
  /-- Cause code of the most recent step, 0 if it reported nothing. -/
  cause : BitVec 4
  /-- The value recorded with `cause`. -/
  info : Word
  /-- Bit `c` is 1 if cause `c` was reported by any step since reset. -/
  seen : BitVec 10
  deriving DecidableEq, Repr

/-- Memory (10 R33): the cells whose value differs from the reset value, addresses strictly
rising. -/
abbrev Memory := List Host.Cell

/-- The framebuffer (10 R37): `fb[r][c]`, row `r` from the top, byte column `c` from the left. -/
abbrev Framebuffer := Vector (Vector Byte Config.fbWb) Config.fbHeight

/-- The complete architectural state (10 R20), and two counters of the model's own, `env` and
`drawDone`. -/
structure State where
  /-- `V[0..15]` (10 R21), `Config.regBits` bits each. -/
  v : Vector Byte Config.nRegs
  /-- `OVF`, the overflow indicator of the last register write (10 R23). -/
  ovf : Bool
  /-- `pc` (10 R25), `Config.pcBits` bits. -/
  pc : Word
  /-- `I`, the index register (10 R28), `Config.iBits` bits. -/
  i : Word
  /-- `SP`, the depth of the call stack, 0 to 16 (10 R30). -/
  sp : Fin (Config.stackDepth + 1)
  /-- `stack[0..15]` (10 R30), `Config.stackWidth` bits each. -/
  stack : Vector Word Config.stackDepth
  /-- `mem` (10 R33). -/
  mem : Memory
  /-- `fb` (10 R37). -/
  fb : Framebuffer
  /-- `collision` of the most recent draw (10 R39). -/
  collision : Bool
  /-- `DT`, the delay timer (10 R40), `Config.timerBits` bits. -/
  dt : Byte
  /-- `ST`, the sound timer (10 R40), `Config.timerBits` bits. -/
  st : Byte
  /-- `STATUS` (10 R41). -/
  status : Status
  /-- MODEL'S OWN (log 6): the number of interpreter steps made, at which the free answers of the
  environment are read. -/
  env : Nat
  /-- MODEL'S OWN (log 7): the number of `draw_done` events emitted (60 R287); nothing reads it. -/
  drawDone : Nat
  deriving DecidableEq, Repr

/-- The state right after `Reset()` (70 R300, 10 R43): `pc` at 0x200, memory at its reset contents
(nothing listed), everything else 0. -/
def State.reset : State where
  v := Vector.replicate Config.nRegs 0
  ovf := false
  pc := BitVec.ofNat Config.pcBits Config.progBase
  i := 0
  sp := 0
  stack := Vector.replicate Config.stackDepth 0
  mem := []
  fb := Vector.replicate Config.fbHeight (Vector.replicate Config.fbWb 0)
  collision := false
  dt := 0
  st := 0
  status := { halted := false, cause := 0, info := 0, seen := 0 }
  env := 0
  drawDone := 0

end Sys2Proof.Machine
end

