-- ==== Sys2Proof/Machine/Ops.lean ====
section
/-! DEFINITION. The named operations every meaning is written over: memory, registers, pc, `I`,
the call stack, the timers, the framebuffer, and taking an error (10, 20, 44, 60).
-/

namespace Sys2Proof.Machine

/-! ## Memory (10 R33 to R36, 20 R65 to R69) -/

/-- What an address reads as when no cell is listed: its reset value, the font at 0x000 to 0x04F
and 0x00 elsewhere (10 R35, R43). -/
def Memory.base (a : Nat) : Byte := (Config.font[a]?).getD 0

/-- The canonical form: addresses strictly rising, inside the address space, and no cell equal to
what it reads as when it is not listed. -/
abbrev Memory.wf (m : Memory) : Prop :=
  m.Pairwise (fun c d => c.1 < d.1) ∧ ∀ c ∈ m, c.1 < Config.memSize ∧ c.2 ≠ Memory.base c.1

/-- `mem[a]`: one byte (20 R66). -/
def Memory.read : Memory → Nat → Byte
  | [], a => Memory.base a
  | (b, v) :: m, a => if a = b then v else Memory.read m a

/-- A cell put in front, unless it holds what its address reads as anyway. -/
def Memory.place (a : Nat) (v : Byte) (m : Memory) : Memory :=
  if v = Memory.base a then m else (a, v) :: m

/-- `mem[a] <- v`: one byte (20 R67), keeping the canonical form. -/
def Memory.write : Memory → Nat → Byte → Memory
  | [], a, v => Memory.place a v []
  | (b, w) :: m, a, v =>
    if a < b then Memory.place a v ((b, w) :: m)
    else if a = b then Memory.place a v m
    else (b, w) :: Memory.write m a v

/-- Bytes written at ascending addresses from `a` (20 R61). -/
def Memory.writeBytes (m : Memory) (a : Nat) : List Byte → Memory
  | [] => m
  | b :: bs => Memory.writeBytes (m.write a b) (a + 1) bs

/-- `n` bytes read at ascending addresses from `a` (20 R61). -/
def Memory.readBytes (m : Memory) (a : Nat) : Nat → List Byte
  | 0 => []
  | n + 1 => m.read a :: Memory.readBytes m (a + 1) n

/-- `MemRead(a, 2)`: the instruction word at `a`, big-endian (20 R60, R66). -/
def Memory.fetchWord (m : Memory) (a : Nat) : Word := wordOfBytes (m.read a) (m.read (a + 1))

/-- `CheckRead(addr, len)` (20 R68): the range check of a whole access, nothing when `len` is 0. -/
def checkRead (addr len : Nat) : Option Cause :=
  if 1 ≤ len ∧ 0xFFF < addr + len - 1 then some .memoryRangeFault else none

/-- `CheckWrite(addr, len)` (20 R69): the range first, then the write protection. -/
def checkWrite (addr len : Nat) : Option Cause :=
  if 0xFFF < addr + len - 1 then some .memoryRangeFault
  else if addr < Config.progBase then some .writeProtectFault
  else none

namespace State

/-- Bytes stored to memory at ascending addresses from `a`. -/
def storeBytes (s : State) (a : Nat) (bs : List Byte) : State :=
  { s with mem := Memory.writeBytes s.mem a bs }

/-! ## General registers (10 R21, R22) -/

/-- `V[i]` (10 R21). -/
def reg (s : State) (r : Reg) : Byte := s.v[r.toNat]'(r.isLt)

/-- `V[i] <- raw` (10 R22): stores `raw mod 256` and records whether `raw` fell outside 0 to 255. -/
def writeReg (s : State) (r : Reg) (raw : Int) : State :=
  { s with
    v := s.v.set r.toNat (BitVec.ofInt 8 raw) r.isLt
    ovf := decide (raw < 0 ∨ 256 ≤ raw) }

/-- `V[k] <- mem[a + k]` for `k` below `n`, in ascending order (43 R195). -/
def loadRegsFrom (s : State) (a : Nat) : Nat → State
  | 0 => s
  | k + 1 =>
    let s' := loadRegsFrom s a k
    s'.writeReg (BitVec.ofNat 4 k) (s'.mem.read (a + k)).toNat

/-! ## pc and I (10 R25, R28) -/

/-- `pc <- t` (10 R25). -/
def setPc (s : State) (t : Word) : State := { s with pc := t }

/-- `I <- v` (10 R28). -/
def setIndex (s : State) (w : Word) : State := { s with i := w }

/-- `skip` if the condition holds: `pc <- pc + 2`, on the advanced pc (41 R140). -/
def skipIf (s : State) (cond : Bool) : State := s.setPc (if cond then s.pc + 2 else s.pc)

/-! ## The call stack (10 R30 to R32) -/

/-- The check of `Push` (10 R31). -/
def checkPush (s : State) : Option Cause :=
  if s.sp.val = Config.stackDepth then some .stackOverflow else none

/-- `Push(v)` after its check (10 R31). -/
def push (s : State) (w : Word) : State :=
  if h : s.sp.val < Config.stackDepth then
    { s with stack := s.stack.set s.sp.val w h, sp := ⟨s.sp.val + 1, Nat.succ_lt_succ h⟩ }
  else s

/-- The check of `Pop` (10 R32). -/
def checkPop (s : State) : Option Cause :=
  if s.sp.val = 0 then some .stackUnderflow else none

/-- The newest live entry, `stack[SP - 1]` (10 R32). -/
def top (s : State) : Word :=
  s.stack[s.sp.val - 1]'(by have h := s.sp.isLt; simp only [Config.stackDepth] at *; omega)

/-- `SP <- SP - 1` (10 R32); the entry itself stays, stale (10 R30). -/
def drop (s : State) : State :=
  { s with sp := ⟨s.sp.val - 1, Nat.lt_of_le_of_lt (Nat.sub_le _ _) s.sp.isLt⟩ }

/-! ## Errors (60 R250 to R254) -/

end State

/-- The cause code (60 R250). -/
def Cause.code : Cause → BitVec 4
  | .decodeError => 1
  | .argumentArityError => 2
  | .stackOverflow => 3
  | .stackUnderflow => 4
  | .invalidFontIndex => 5
  | .loadOverflow => 6
  | .memoryRangeFault => 7
  | .writeProtectFault => 8
  | .invalidKeyIndex => 9

/-- Is the cause's class fatal (60 R250)? The others are recoverable, but for `loadOverflow`,
which no step records. -/
def Cause.fatal : Cause → Bool
  | .stackOverflow => true
  | .stackUnderflow => true
  | .memoryRangeFault => true
  | .writeProtectFault => true
  | .decodeError => false
  | .argumentArityError => false
  | .invalidFontIndex => false
  | .loadOverflow => false
  | .invalidKeyIndex => false

/-- Bit `c` of `STATUS.seen`. -/
def seenBit (c : BitVec 4) : BitVec 10 := 1#10 <<< c.toNat

namespace State

/-- TAKING AN ERROR: `report` for a recoverable cause (60 R253), `raise` for a fatal one (60 R254).
`STATUS` records it, a fatal one halts, and nothing else changes: no register saves the pc, no
handler is entered and there is no return from one (60 R261, R263); only `Reset()` leaves the
halted state. -/
def takeError (s : State) (c : Cause) (info : Word) : State :=
  { s with
    status :=
      { halted := s.status.halted || c.fatal
        cause := c.code
        info := info
        seen := s.status.seen ||| seenBit c.code } }

/-- Checks first, then effects (40 R124): when the check of instruction `i` fails the error is
taken, with the instruction's word as its info, and the effect does not happen. -/
def checkThen (s : State) (i : Instr) (check : Option Cause) (effect : State) :
    Host.Outcome State Fault Refusal :=
  match check with
  | some c => .next (s.takeError c (encode i))
  | none => .next effect

/-- The start of a step that fetches: pc is advanced past the instruction before dispatch (10 R25,
40 R121), `STATUS.cause` and `STATUS.info` are cleared, to stay 0 unless the step reports (40 R125,
log 11), and the next answers of the environment are taken up (log 6). -/
def advance (s : State) : State :=
  { s with
    pc := s.pc + 2
    status := { s.status with cause := 0, info := 0 }
    env := s.env + 1 }

/-- Can an instruction be fetched at `pc`: are both its bytes in range (40 R121)? -/
def fetchable (s : State) : Bool := decide (s.pc.toNat + 1 ≤ 0xFFF)

/-- The word at `pc`. -/
def fetched (s : State) : Word := Memory.fetchWord s.mem s.pc.toNat

end State

/-! ## Timers (60 R270 to R276) -/

/-- `Tick(T)` on the timer's value (60 R271). -/
def tickValue (t : Byte) : Byte := if 0 < t.toNat then t - 1 else t

/-- The value after `n` ticks. -/
def tickMany : Nat → Byte → Byte
  | 0, t => t
  | n + 1, t => tickMany n (tickValue t)

namespace State

/-- `Tick(DT)` (60 R271). -/
def tickDelay (s : State) : State := { s with dt := tickValue s.dt }

/-- `Tick(ST)` (60 R271). -/
def tickSound (s : State) : State := { s with st := tickValue s.st }

/-- `TimerSet(DT, v)` (60 R273): replaces any count in progress. -/
def setDelayTimer (s : State) (v : Byte) : State := { s with dt := v }

/-- `TimerSet(ST, v)` (60 R273). -/
def setSoundTimer (s : State) (v : Byte) : State := { s with st := v }

/-- The ticks that pass between two interpreter steps: a free number of each timer's (60 R272,
log 3). -/
def passTime (s : State) : State :=
  { s with
    dt := tickMany (Config.delayTicks s.env) s.dt
    st := tickMany (Config.soundTicks s.env) s.st }

end State

/-! ## Framebuffer (10 R37 to R39, 44 R210, R211, R215) -/

/-- A row number reduced modulo `FB_HEIGHT` (44 R215). -/
def rowOf (r : Nat) : Fin Config.fbHeight := ⟨r % Config.fbHeight, Nat.mod_lt _ (by decide)⟩

/-- A byte column reduced modulo `FB_WB` (44 R215). -/
def colOf (c : Nat) : Fin Config.fbWb := ⟨c % Config.fbWb, Nat.mod_lt _ (by decide)⟩

namespace Framebuffer

/-- All bytes 0x00 (44 R210). -/
def cleared : Framebuffer := Vector.replicate Config.fbHeight (Vector.replicate Config.fbWb 0)

/-- `fb[r][c]` (10 R37). -/
def byte (fb : Framebuffer) (r : Fin Config.fbHeight) (c : Fin Config.fbWb) : Byte := fb[r][c]

/-- `fb[r][c] <- b`. -/
def setByte (fb : Framebuffer) (r : Fin Config.fbHeight) (c : Fin Config.fbWb) (b : Byte) :
    Framebuffer :=
  fb.set r (fb[r].set c b)

/-- The pixel at column `px`, row `py`: the most significant bit of a byte is its leftmost pixel
(10 R38). -/
def pixel (fb : Framebuffer) (px py : Nat) : Bool :=
  (fb.byte (rowOf py) (colOf (px / 8))).getLsbD (7 - px % 8)

/-- One byte of a sprite row combined into one byte of the grid: exclusive or, with the collision
of a set pixel about to be cleared (44 R211). -/
def composite (acc : Framebuffer × Bool) (r : Fin Config.fbHeight) (c : Fin Config.fbWb)
    (bits : Byte) : Framebuffer × Bool :=
  (acc.1.setByte r c (acc.1.byte r c ^^^ bits), acc.2 || (acc.1.byte r c &&& bits) != 0)

/-- The part of a sprite byte that falls in the column of its left edge (44 R211). -/
def leftPart (off : Nat) (b : Byte) : Byte := b >>> off

/-- The part that spills into the right neighbour, 0 when `off` is 0 (44 R211). -/
def rightPart (off : Nat) (b : Byte) : Byte := b <<< (8 - off)

/-- One sprite byte at column `x` of row `r`: its left part, then its right part (44 R211). -/
def drawRow (acc : Framebuffer × Bool) (x : Nat) (r : Fin Config.fbHeight) (b : Byte) :
    Framebuffer × Bool :=
  composite (composite acc r (colOf (x / 8)) (leftPart (x % 8) b))
    r (colOf (x / 8 + 1)) (rightPart (x % 8) b)

/-- The sprite bytes on successive rows from `y` on (44 R211). -/
def drawRows (acc : Framebuffer × Bool) (x y : Nat) : List Byte → Framebuffer × Bool
  | [] => acc
  | b :: bs => drawRows (drawRow acc x (rowOf y) b) x (y + 1) bs

/-- `FbDraw(x, y, S)`: the new grid and the collision (44 R211). -/
def draw (fb : Framebuffer) (x y : Nat) (sprite : List Byte) : Framebuffer × Bool :=
  drawRows (fb, false) x y sprite

end Framebuffer

namespace State

/-- `FbClear()` (44 R210); `collision` is left as it was. -/
def clearFb (s : State) : State := { s with fb := Framebuffer.cleared }

/-- `FbDraw(x, y, S)` on the state, setting `collision` (44 R211, 10 R39). -/
def drawFb (s : State) (x y : Nat) (sprite : List Byte) : State :=
  { s with
    fb := (Framebuffer.draw s.fb x y sprite).1
    collision := (Framebuffer.draw s.fb x y sprite).2 }

/-- The `draw_done` event is emitted (60 R287, log 7). -/
def emitDrawDone (s : State) : State := { s with drawDone := s.drawDone + 1 }

/-! ## Placing an instruction where the next step fetches it -/

/-- The word `op` at `pc`, on a core that can fetch it: if no instruction can be fetched at `pc`
the pc becomes 0x200, and a halted core is released (log 12). It stands for the host's `Load`. -/
def placeWord (s : State) (op : Word) : State :=
  let a : Word := if s.fetchable then s.pc else BitVec.ofNat 16 Config.progBase
  { s with
    pc := a
    mem := Memory.writeBytes s.mem a.toNat (bytesOfWord op)
    status := { s.status with halted := false } }

end State

end Sys2Proof.Machine
end

