-- ==== Sys2Proof/Machine/Operands.lean ====
section
/-! DEFINITION. Every operand form of the instruction set (30 R93, 43 R196): a register, an
immediate, an absolute address, an address through `I`, a key number, and what the environment
answers.
-/

namespace Sys2Proof.Machine

/-- `nnn` as a 16-bit address, zero-extended (30 R93). -/
def addrOf (nnn : Addr) : Word := nnn.setWidth 16

/-- A register value as a 16-bit quantity, zero-extended (43 R191, 41 R144). -/
def wide (b : Byte) : Word := b.setWidth 16

/-- `x` as a count: registers 0 to `x`, `x + 1` of them (30 R93). -/
def countOf (x : Reg) : Nat := x.toNat + 1

/-- The address of glyph `v`: `FONT_BASE + 5 * v` (43 R192, 10 R35). -/
def glyphAddr (v : Byte) : Word :=
  BitVec.ofNat 16 (Config.fontBase + Config.glyphBytes * v.toNat)

/-- `font_index` tests the whole register value (43 R192). -/
def checkFontIndex (v : Byte) : Option Cause :=
  if 0x0F < v.toNat then some .invalidFontIndex else none

/-- The key skips test the whole register value, and mask nothing (45 R236). -/
def checkKeyIndex (v : Byte) : Option Cause :=
  if 0x0F < v.toNat then some .invalidKeyIndex else none

/-- The three decimal digits of a byte: hundreds, tens, units (43 R193). -/
def bcdDigits (v : Byte) : List Byte :=
  [BitVec.ofNat 8 (v.toNat / 100), BitVec.ofNat 8 (v.toNat / 10 % 10),
   BitVec.ofNat 8 (v.toNat % 10)]

namespace State

/-- The effective address of a load, store or draw: `I`, as a mathematical integer (20 R65). -/
def indexAddr (s : State) : Nat := s.i.toNat

/-- `V[0]` to `V[x]`, in ascending order (43 R194). -/
def regsUpTo (s : State) (x : Reg) : List Byte := s.v.toList.take (countOf x)

/-- The answer of `KeyPressed` for the key a register names (60 R283, log 4). -/
def keyPressed (s : State) (v : Byte) : Bool := Config.keyPressed s.env (v.setWidth 4)

/-- The answer of `NextKey()` (60 R284, log 4). -/
def nextKey (s : State) : Option Nibble := Config.nextKey s.env

/-- The answer of `Random(kk)` (60 R285, log 4). -/
def randomDraw (s : State) (kk : Byte) : Nat := (Config.randomDraw s.env kk).val

end State

end Sys2Proof.Machine
end

