-- ==== Sys2Proof/Machine/Flags.lean ====
section
/-! DEFINITION. Every flag computation (10 R24, 42 R173 to R175). The result is written to `V[x]`
first and the flag to VF last, each through the register write of 10 R22, so that with `x` = 15
the flag wins.
-/

namespace Sys2Proof.Machine

/-- A flag as the value written to VF: 1 or 0, never left stale (42 R173). -/
def flagValue (b : Bool) : Int := if b then 1 else 0

namespace State

/-- The result `raw` to `V[x]`, then a flag known before it to VF (42 R173). -/
def writeThenFlag (s : State) (x : Reg) (raw : Int) (flag : Bool) : State :=
  (s.writeReg x raw).writeReg vf (flagValue flag)

/-- VF after an addition: the overflow indicator of the result's own write, that is the carry
(42 R166). -/
def writeCarry (s : State) (x : Reg) (raw : Int) : State :=
  (s.writeReg x raw).writeReg vf (flagValue (s.writeReg x raw).ovf)

/-- VF after a subtraction: the complement of the overflow indicator, 1 when no borrow occurred
(42 R174). -/
def writeNoBorrow (s : State) (x : Reg) (raw : Int) : State :=
  (s.writeReg x raw).writeReg vf (1 - flagValue (s.writeReg x raw).ovf)

/-- VF after a draw: the collision (44 R212). -/
def writeCollision (s : State) : State := s.writeReg vf (flagValue s.collision)

end State

end Sys2Proof.Machine
end

