-- ==== Sys2Proof/Machine/ControlFlow.lean ====
section
/-! DEFINITION. Control transfer (spec 41). In every meaning `pc` already holds the advanced pc,
`a + 2` (10 R25). -/

namespace Sys2Proof.Machine

open Host (Outcome)

/-- `jmp nnn` (41 R141). -/
def execJmp (nnn : Addr) (s : State) : Outcome State Fault Refusal :=
  .next (s.setPc (addrOf nnn))

/-- `jsr nnn` (41 R142): the advanced pc is pushed. -/
def execJsr (nnn : Addr) (s : State) : Outcome State Fault Refusal :=
  s.checkThen (.jsr nnn) s.checkPush ((s.push s.pc).setPc (addrOf nnn))

/-- `ret_from_sub` (41 R143). -/
def execRetFromSub (z : Nibble) (s : State) : Outcome State Fault Refusal :=
  s.checkThen (.retFromSub z) s.checkPop (s.drop.setPc s.top)

/-- `jmp_v0 nnn` (41 R144): always `V[0]`, no 12-bit wrap. -/
def execJmpV0 (nnn : Addr) (s : State) : Outcome State Fault Refusal :=
  .next (s.setPc (addrOf nnn + wide (s.reg 0)))

/-- `skip_eq_imm Vx, kk` (41 R145). -/
def execSkipEqImm (x : Reg) (kk : Byte) (s : State) : Outcome State Fault Refusal :=
  .next (s.skipIf (s.reg x == kk))

/-- `skip_ne_imm Vx, kk` (41 R146). -/
def execSkipNeImm (x : Reg) (kk : Byte) (s : State) : Outcome State Fault Refusal :=
  .next (s.skipIf (s.reg x != kk))

/-- `skip_eq_reg Vx, Vy` (41 R147); the ignored bits have no effect. -/
def execSkipEqReg (x y : Reg) (s : State) : Outcome State Fault Refusal :=
  .next (s.skipIf (s.reg x == s.reg y))

/-- `skip_ne_reg Vx, Vy` (41 R148); the ignored bits have no effect. -/
def execSkipNeReg (x y : Reg) (s : State) : Outcome State Fault Refusal :=
  .next (s.skipIf (s.reg x != s.reg y))

end Sys2Proof.Machine
end

