-- ==== Sys2Proof/Machine/Display.lean ====
section
/-! DEFINITION. Framebuffer instructions (spec 44). -/

namespace Sys2Proof.Machine

open Host (Outcome)

/-- `clear_screen` (44 R213); the ignored bits have no effect. -/
def execClearScreen (s : State) : Outcome State Fault Refusal :=
  .next s.clearFb

/-- `draw Vx, Vy, n` (44 R212): coordinates and sprite are read before VF is written. -/
def execDraw (x y : Reg) (n : Nibble) (s : State) : Outcome State Fault Refusal :=
  s.checkThen (.draw x y n) (checkRead s.indexAddr n.toNat)
    (s.drawFb (s.reg x).toNat (s.reg y).toNat
      (Memory.readBytes s.mem s.indexAddr n.toNat)).writeCollision.emitDrawDone

end Sys2Proof.Machine
end

