-- ==== Sys2Proof/Machine/IndexMemory.lean ====
section
/-! DEFINITION. Index register and memory instructions (spec 43). The whole range is checked before
anything is written (40 R124); `I` is never modified by a load or store (43 R196). -/

namespace Sys2Proof.Machine

open Host (Outcome)

/-- `mov_index nnn` (43 R190). -/
def execMovIndex (nnn : Addr) (s : State) : Outcome State Fault Refusal :=
  .next (s.setIndex (addrOf nnn))

/-- `add_index Vx` (43 R191): wraps modulo 2^16, no flag. -/
def execAddIndex (x : Reg) (s : State) : Outcome State Fault Refusal :=
  .next (s.setIndex (s.i + wide (s.reg x)))

/-- `font_index Vx` (43 R192). -/
def execFontIndex (x : Reg) (s : State) : Outcome State Fault Refusal :=
  s.checkThen (.fontIndex x) (checkFontIndex (s.reg x)) (s.setIndex (glyphAddr (s.reg x)))

/-- `store_bcd Vx` (43 R193). -/
def execStoreBcd (x : Reg) (s : State) : Outcome State Fault Refusal :=
  s.checkThen (.storeBcd x) (checkWrite s.indexAddr 3)
    (s.storeBytes s.indexAddr (bcdDigits (s.reg x)))

/-- `store_regs Vx` (43 R194). -/
def execStoreRegs (x : Reg) (s : State) : Outcome State Fault Refusal :=
  s.checkThen (.storeRegs x) (checkWrite s.indexAddr (countOf x))
    (s.storeBytes s.indexAddr (s.regsUpTo x))

/-- `load_regs Vx` (43 R195). -/
def execLoadRegs (x : Reg) (s : State) : Outcome State Fault Refusal :=
  s.checkThen (.loadRegs x) (checkRead s.indexAddr (countOf x))
    (s.loadRegsFrom s.indexAddr (countOf x))

end Sys2Proof.Machine
end

