-- ==== Sys2Proof/Machine/KeysTimers.lean ====
section
/-! DEFINITION. Key and timer instructions (spec 45). What the key collaborator answers is a free
value at each query (60 R283, R284, log 4). -/

namespace Sys2Proof.Machine

open Host (Outcome)

/-- `skip_key_pressed Vx` (45 R230): the collaborator is not queried for a value above 15. -/
def execSkipKeyPressed (x : Reg) (s : State) : Outcome State Fault Refusal :=
  s.checkThen (.skipKeyPressed x) (checkKeyIndex (s.reg x)) (s.skipIf (s.keyPressed (s.reg x)))

/-- `skip_key_not_pressed Vx` (45 R231). -/
def execSkipKeyNotPressed (x : Reg) (s : State) : Outcome State Fault Refusal :=
  s.checkThen (.skipKeyNotPressed x) (checkKeyIndex (s.reg x))
    (s.skipIf (!s.keyPressed (s.reg x)))

/-- What `wait_key` does with the answer of `NextKey()`: with none, pc goes back onto the
instruction itself (45 R232). -/
def State.acceptKey (s : State) (x : Reg) : Option Nibble → State
  | none => s.setPc (s.pc - 2)
  | some k => s.writeReg x k.toNat

/-- `wait_key Vx` (45 R232): the step never suspends. -/
def execWaitKey (x : Reg) (s : State) : Outcome State Fault Refusal :=
  .next (s.acceptKey x s.nextKey)

/-- `get_delay Vx` (45 R233). -/
def execGetDelay (x : Reg) (s : State) : Outcome State Fault Refusal :=
  .next (s.writeReg x s.dt.toNat)

/-- `set_delay Vx` (45 R234). -/
def execSetDelay (x : Reg) (s : State) : Outcome State Fault Refusal :=
  .next (s.setDelayTimer (s.reg x))

/-- `set_sound Vx` (45 R235). -/
def execSetSound (x : Reg) (s : State) : Outcome State Fault Refusal :=
  .next (s.setSoundTimer (s.reg x))

end Sys2Proof.Machine
end

