-- ==== Sys2Proof/Machine/RegisterAlu.lean ====
section
/-! DEFINITION. Register and ALU instructions (spec 42). Raw results are mathematical integers; the
register write reduces them (10 R22, 42 R172). All operands are read before any write (40 R124). -/

namespace Sys2Proof.Machine

open Host (Outcome)

/-- `mov_imm Vx, kk` (42 R160). -/
def execMovImm (x : Reg) (kk : Byte) (s : State) : Outcome State Fault Refusal :=
  .next (s.writeReg x kk.toNat)

/-- `add_imm Vx, kk` (42 R161): no flag in VF. -/
def execAddImm (x : Reg) (kk : Byte) (s : State) : Outcome State Fault Refusal :=
  .next (s.writeReg x ((s.reg x).toNat + kk.toNat))

/-- `mov Vx, Vy` (42 R162). -/
def execMov (x y : Reg) (s : State) : Outcome State Fault Refusal :=
  .next (s.writeReg x (s.reg y).toNat)

/-- `or Vx, Vy` (42 R163): VF is not written. -/
def execOrReg (x y : Reg) (s : State) : Outcome State Fault Refusal :=
  .next (s.writeReg x (s.reg x ||| s.reg y).toNat)

/-- `and Vx, Vy` (42 R164): VF is not written. -/
def execAndReg (x y : Reg) (s : State) : Outcome State Fault Refusal :=
  .next (s.writeReg x (s.reg x &&& s.reg y).toNat)

/-- `xor Vx, Vy` (42 R165): VF is not written. -/
def execXorReg (x y : Reg) (s : State) : Outcome State Fault Refusal :=
  .next (s.writeReg x (s.reg x ^^^ s.reg y).toNat)

/-- `add Vx, Vy` (42 R166): VF is the carry. -/
def execAdd (x y : Reg) (s : State) : Outcome State Fault Refusal :=
  .next (s.writeCarry x ((s.reg x).toNat + (s.reg y).toNat))

/-- `sub Vx, Vy` (42 R167): VF is 1 when no borrow occurred. -/
def execSub (x y : Reg) (s : State) : Outcome State Fault Refusal :=
  .next (s.writeNoBorrow x ((s.reg x).toNat - (s.reg y).toNat))

/-- `shr Vx` (42 R168): VF is bit 0 of the old `V[x]`; `V[y]` is not read (42 R175). -/
def execShr (x : Reg) (s : State) : Outcome State Fault Refusal :=
  .next (s.writeThenFlag x ((s.reg x).toNat / 2 : Nat) ((s.reg x).getLsbD 0))

/-- `subn Vx, Vy` (42 R169): VF is 1 when no borrow occurred. -/
def execSubn (x y : Reg) (s : State) : Outcome State Fault Refusal :=
  .next (s.writeNoBorrow x ((s.reg y).toNat - (s.reg x).toNat))

/-- `shl Vx` (42 R170): VF is bit 7 of the old `V[x]`; `V[y]` is not read (42 R175). -/
def execShl (x : Reg) (s : State) : Outcome State Fault Refusal :=
  .next (s.writeThenFlag x ((s.reg x).toNat * 2 : Nat) ((s.reg x).getLsbD 7))

/-- `rand Vx, kk` (42 R171): any value from 0 to `kk` inclusive, not a mask. -/
def execRand (x : Reg) (kk : Byte) (s : State) : Outcome State Fault Refusal :=
  .next (s.writeReg x (s.randomDraw kk))

end Sys2Proof.Machine
end

