-- ==== Sys2Proof/Machine/Cycle.lean ====
section
/-! DEFINITION. `Step()`: the interpreter's fetch-decode-execute cycle (40 R120). -/

namespace Sys2Proof.Machine

/-- What the cycle does with the fetched word, on the state whose pc is already advanced (40 R122,
R123). -/
def execWord (op : Word) (s : State) : Host.Outcome State Fault Refusal :=
  match decode op with
  | .invalid _ => .next (s.takeError .decodeError op)
  | .instr i => exec i s

/-- `Step()` (40 R120): refused while halted, a fatal fetch fault with pc unchanged when a byte of
the instruction is out of range (40 R121), else the word at `pc` is executed on the advanced
state. -/
def interpret (s : State) : Host.Outcome State Fault Refusal :=
  if s.status.halted then .fault .halted
  else if s.fetchable then execWord s.fetched s.advance
  else .next (s.takeError .memoryRangeFault s.pc)

end Sys2Proof.Machine
end

