-- ==== Sys2Proof/Machine/Step.lean ====
section
/-! DEFINITION. One step of the machine: the timer ticks that pass before the interpreter step
(60 R272, log 3), then the interpreter's own step (40 R120).
-/

namespace Sys2Proof.Machine

/-- One step: a free number of ticks of each timer, then `Step()`. -/
def step (s : State) : Host.Outcome State Fault Refusal := interpret s.passTime

/-- The state with the word `w` of `nbits` bits where the next step fetches (log 12). -/
def State.withFetchWord (s : State) (nbits w : Nat) : State :=
  s.placeWord (BitVec.ofNat 16 (w % 2 ^ nbits))

end Sys2Proof.Machine
end

