-- ==== Sys2Proof/Machine/Boundary.lean ====
section
/-! DEFINITION. The host's side of the core (60 R280 to R289, 70 R300 to R306): `Reset`, `Load`,
the single ticks, `abort`, the result of `Step()`, the outputs. Each is one atomic transaction
between steps (20 R74).
-/

namespace Sys2Proof.Machine

/-! ## Reset and load -/

/-- `Reset()` (70 R300): every piece of architectural state at its reset value, whatever it was
(70 R301). The model's own counters go on, so that the environment's later answers are fresh ones
(log 6, log 7). -/
def State.resetCore (s : State) : State :=
  { State.reset with env := s.env, drawDone := s.drawDone }

/-- What `Load` returns to the host (60 R281). -/
inductive LoadResult where
  | ok
  /-- The image is longer than 3584 bytes; nothing is copied. Not recorded in `STATUS`. -/
  | loadOverflow
  deriving DecidableEq, Repr

/-- `Load(bytes)` (60 R281): the image copied to 0x200 upward, or refused as a whole. -/
def State.load (s : State) (bytes : List Byte) : LoadResult × State :=
  if Config.loadMax < bytes.length then (.loadOverflow, s)
  else (.ok, s.storeBytes Config.progBase bytes)

/-! ## The result of a step -/

/-- What `Step()` returns to the host (40 R129). -/
inductive StepResult where
  | halted
  | ok
  | recoverable (cause : BitVec 4) (info : Word)
  | fatal (cause : BitVec 4) (info : Word)
  deriving DecidableEq, Repr

/-- The result that a step's `STATUS` stands for (40 R125, R129). -/
def Status.result (t : Status) : StepResult :=
  if t.cause = 0 then .ok
  else if t.halted then .fatal t.cause t.info
  else .recoverable t.cause t.info

/-- The result of `Step()` on a state (40 R129); none where the model gives the step no meaning. -/
def stepResult (s : State) : Option StepResult :=
  match interpret s with
  | .next t => some t.status.result
  | .fault .halted => some .halted
  | .refused _ => none

/-- Does `Step()` on this state emit `draw_done` (60 R287)? -/
def emitsDrawDone (s : State) : Bool :=
  match interpret s with
  | .next t => s.drawDone < t.drawDone
  | .fault _ => false
  | .refused _ => false

/-! ## Timers -/

/-- `abort()` on both timers (60 R275): Idle at 0. No instruction invokes it. -/
def State.abortTimers (s : State) : State := (s.setDelayTimer 0).setSoundTimer 0

/-- A timer is Running when its value is above 0, else Idle (60 R270). -/
def running (t : Byte) : Bool := decide (0 < t.toNat)

/-- The level output `st_active` (60 R276). -/
def State.stActive (s : State) : Bool := running s.st

/-! ## Read-outs -/

/-- The bitmap the host may read between steps (60 R286): rows top to bottom, pixels left to right,
most significant bit leftmost (10 R38). -/
def State.bitmap (s : State) : List (List Bool) :=
  (List.range Config.fbHeight).map fun py =>
    (List.range Config.fbWidth).map fun px => Framebuffer.pixel s.fb px py

/-- The diagnostics read-out of memory (60 R288), as lines of an address and a 16-bit word. Which
addresses are listed and how two bytes make a word the spec does not say. DESIGN CHOICE (log 19): the
even addresses in ascending order, and the byte at the lower address in the upper half, as in an
instruction word (20 R60). -/
def State.memoryDump (s : State) : List (Nat × Word) :=
  (List.range (Config.memSize / 2)).map fun k => (2 * k, Memory.fetchWord s.mem (2 * k))

/-- The diagnostics read-out of the register bank (60 R288), as lines of a register index and its
value, in ascending order (log 19). -/
def State.registerDump (s : State) : List (Nat × Byte) :=
  (List.range Config.nRegs).map fun k => (k, s.reg (BitVec.ofNat 4 k))

/-- The core is finished (70 R306): not halted, at a jump to itself. -/
def State.finished (s : State) : Bool :=
  !s.status.halted && decide (s.pc.toNat ≤ 0xFFE) && s.fetched == (0x1000 ||| s.pc)

/-! ## The transactions as events, for claims over every interleaving (60 R272, R280) -/

/-- One transaction of the host, of a timer's clock domain, or of the interpreter. -/
inductive Event where
  | reset
  | load (bytes : List Byte)
  | tickDelay
  | tickSound
  | step
  deriving DecidableEq, Repr

/-- What an event does. Here `step` is the interpreter's own `Step()`: the ticks are events of
their own. -/
def act (e : Event) (s : State) : Host.Outcome State Fault Refusal :=
  match e with
  | .reset => .next s.resetCore
  | .load bytes => .next (s.load bytes).2
  | .tickDelay => .next s.tickDelay
  | .tickSound => .next s.tickSound
  | .step => interpret s

/-- A sequence of events, up to the first stop. -/
def actAll : List Event → State → Host.Outcome State Fault Refusal
  | [], s => .next s
  | e :: es, s =>
    match act e s with
    | .next t => actAll es t
    | .fault r => .fault r
    | .refused r => .refused r

end Sys2Proof.Machine
end

