-- ==== Sys2Proof/Safety.lean ====
section
/-! DEFINITION. What claims mean by a good state and a good run. -/

namespace Sys2Proof.Safety

open Sys2Proof.Machine

/-- No error was ever reported since reset (10 R41, 60 R254): the premise or conclusion of a claim
about a program. -/
def NoErrorSeen (s : State) : Prop := s.status.seen = 0

/-- The core has not been stopped by a fatal error (60 R254). -/
def Alive (s : State) : Prop := s.status.halted = false

/-- The codes a step can record (60 R250): all but the reserved 2, the load-time 6 and the unused
10 to 15. -/
abbrev recordable (c : BitVec 4) : Prop :=
  c = 0 ∨ c = 1 ∨ c = 3 ∨ c = 4 ∨ c = 5 ∨ c = 7 ∨ c = 8 ∨ c = 9

/-- The codes of the fatal causes (60 R250). -/
abbrev fatalCode (c : BitVec 4) : Prop := c = 3 ∨ c = 4 ∨ c = 7 ∨ c = 8

/-- `STATUS` is one that steps can leave (10 R41, 60 R250 to R254): the cause is a recordable one,
`info` is 0 without a cause, the most recent cause is among those seen, the core is halted exactly
when that cause is fatal, and bits 0, 2 and 6 of `seen` are 0. -/
abbrev StatusOk (t : Status) : Prop :=
  recordable t.cause ∧
  (t.cause = 0 → t.info = 0) ∧
  (t.cause ≠ 0 → t.seen.getLsbD t.cause.toNat = true) ∧
  (t.halted = true ↔ fatalCode t.cause) ∧
  t.seen.getLsbD 0 = false ∧ t.seen.getLsbD 2 = false ∧ t.seen.getLsbD 6 = false

/-- Memory is in its canonical form and nothing below 0x200 differs from its reset contents: the
font and the low memory are intact (10 R34). -/
abbrev MemoryOk (m : Memory) : Prop :=
  Memory.wf m ∧ ∀ c ∈ m, Config.progBase ≤ c.1

/-- The invariant of the machine. -/
abbrev Inv (s : State) : Prop := MemoryOk s.mem ∧ StatusOk s.status

/-- The bounds of pc and of the stacked return addresses (10 R26, 41 R142, R144): a fetchable
address plus 2 is at most 0x1000, a computed jump reaches at most 0x10FE. -/
abbrev PcInv (s : State) : Prop :=
  s.pc.toNat ≤ 0x10FE ∧
  ∀ k : Fin Config.stackDepth, (s.stack[k]).toNat ≤ 0x1000

/-- The one liveness assumption a claim may make (60 R272): each timer is ticked again and again.
It is a premise of a claim, never a fact of the model (log 14). -/
def FairTicks : Prop :=
  (∀ n, ∃ m, n ≤ m ∧ 0 < Config.delayTicks m) ∧ (∀ n, ∃ m, n ≤ m ∧ 0 < Config.soundTicks m)

end Sys2Proof.Safety
end

