-- ==== Sys2Proof/Certificates/Slice0/Obligations.lean ====
section
/-! DEFINITION. The statements about the model, for the provers.

Each names in its docstring the rule of spec/ it formalises. Nothing is proved here. `env` and
`drawDone` are the model's own counters (log 6, log 7); no statement rests on a value of theirs,
and none on a value of a free answer of the environment (log 3, log 4).
-/

namespace Sys2Proof.Claim

open Sys2Proof.Machine

/-! ## What a statement says about everything else -/

/-- Every byte of memory reads as before. -/
def SameMemory (s t : State) : Prop := ∀ a, Memory.read t.mem a = Memory.read s.mem a

/-- Nothing changed but the registers listed, and `OVF`, which every register write sets. -/
def OnlyRegs (rs : List Reg) (s t : State) : Prop :=
  (∀ r, r ∉ rs → t.reg r = s.reg r) ∧ SameMemory s t ∧ t = { s with v := t.v, ovf := t.ovf }

/-- Nothing changed but the `n` bytes of memory at `a`. -/
def OnlyStored (a n : Nat) (s t : State) : Prop :=
  (∀ b, b < a ∨ a + n ≤ b → Memory.read t.mem b = Memory.read s.mem b) ∧
  t = { s with mem := t.mem }

/-- The state with the error of a code recorded: `STATUS` is written, a fatal one halts, nothing
else changes (60 R253, R254). -/
def recorded (s : State) (code : BitVec 4) (info : Word) (fatal : Bool) : State :=
  { s with
    status :=
      { halted := s.status.halted || fatal, cause := code, info := info,
        seen := s.status.seen ||| (1#10 <<< code.toNat) } }

/-- The `n` sprite bytes at `I` upward, top row first (20 R61). -/
def sprite (s : State) (n : Nat) : List Byte :=
  (List.range n).map fun k => Memory.read s.mem (s.i.toNat + k)

/-- The pixel column that column `j` of a sprite at `x` falls on (44 R211). -/
def spriteCol (x j : Nat) : Nat := (x + j) % Config.fbWidth

/-- The pixel row that row `k` of a sprite at `y` falls on (44 R211). -/
def spriteRow (y k : Nat) : Nat := (y + k) % Config.fbHeight

/-- The instructions that write VF as a side effect (10 R24). -/
def writesFlag : Instr → Bool
  | .add _ _ | .sub _ _ | .shr _ _ | .subn _ _ | .shl _ _ | .draw _ _ _ => true
  | .clearScreen _ | .retFromSub _ | .jmp _ | .jsr _ | .skipEqImm _ _ | .skipNeImm _ _
  | .skipEqReg _ _ _ | .movImm _ _ | .addImm _ _ | .mov _ _ | .orReg _ _ | .andReg _ _
  | .xorReg _ _ | .skipNeReg _ _ _ | .movIndex _ | .jmpV0 _ | .rand _ _ | .skipKeyPressed _
  | .skipKeyNotPressed _ | .getDelay _ | .waitKey _ | .setDelay _ | .setSound _ | .addIndex _
  | .fontIndex _ | .storeBcd _ | .storeRegs _ | .loadRegs _ => false

/-- The register an instruction names as its destination `x`. -/
def destination : Instr → Option Reg
  | .movImm x _ | .addImm x _ | .mov x _ | .orReg x _ | .andReg x _ | .xorReg x _ | .add x _
  | .sub x _ | .shr x _ | .subn x _ | .shl x _ | .rand x _ | .getDelay x | .waitKey x => some x
  | .clearScreen _ | .retFromSub _ | .jmp _ | .jsr _ | .skipEqImm _ _ | .skipNeImm _ _
  | .skipEqReg _ _ _ | .skipNeReg _ _ _ | .movIndex _ | .jmpV0 _ | .draw _ _ _
  | .skipKeyPressed _ | .skipKeyNotPressed _ | .setDelay _ | .setSound _ | .addIndex _
  | .fontIndex _ | .storeBcd _ | .storeRegs _ | .loadRegs _ => none

/-- The instructions that may leave pc elsewhere than at the advanced pc (10 R26). -/
def transfersControl : Instr → Bool
  | .retFromSub _ | .jmp _ | .jsr _ | .skipEqImm _ _ | .skipNeImm _ _ | .skipEqReg _ _ _
  | .skipNeReg _ _ _ | .jmpV0 _ | .skipKeyPressed _ | .skipKeyNotPressed _ | .waitKey _ => true
  | .clearScreen _ | .movImm _ _ | .addImm _ _ | .mov _ _ | .orReg _ _ | .andReg _ _
  | .xorReg _ _ | .add _ _ | .sub _ _ | .shr _ _ | .subn _ _ | .shl _ _ | .movIndex _
  | .rand _ _ | .draw _ _ _ | .getDelay _ | .setDelay _ | .setSound _ | .addIndex _
  | .fontIndex _ | .storeBcd _ | .storeRegs _ | .loadRegs _ => false

/-- Calls made one after another, each with its advanced pc and its target. -/
def callAll : List (Word × Addr) → State → Option State
  | [], s => some s
  | (p, nnn) :: cs, s =>
    match exec (.jsr nnn) { s with pc := p } with
    | .next t => callAll cs t
    | .fault _ => none
    | .refused _ => none

/-- The pcs that `n` returns made one after another leave, and the last state. -/
def returnAll : Nat → State → Option (List Word × State)
  | 0, s => some ([], s)
  | n + 1, s =>
    match exec (.retFromSub 0) s with
    | .next t => (returnAll n t).map fun r => (t.pc :: r.1, r.2)
    | .fault _ => none
    | .refused _ => none

/-- Two states that differ at most in what no instruction reads: `OVF`, `collision`, the sound
timer, the stack entries at `SP` and above, and the model's event counter. -/
def AgreeOnVisible (s s' : State) : Prop :=
  (∀ k : Fin Config.stackDepth, k.val < s.sp.val → s'.stack[k] = s.stack[k]) ∧
  s' = { s with ovf := s'.ovf, collision := s'.collision, st := s'.st, stack := s'.stack,
                drawDone := s'.drawDone }

end Sys2Proof.Claim

open Sys2Proof Sys2Proof.Machine Sys2Proof.Safety Sys2Proof.Claim

/-! ## Encoding -/

/-- 30 R91, R94, R95: the decoder reads back every instruction, with every operand at every value.
Tier 3. -/
def Obligations.DecodeOfEncodeIsTheInstruction : Prop :=
  ∀ i : Instr, decode (encode i) = .instr i

/-- 30 R91, R94, R95: no bit of a valid word is dropped by the decoder, the ignored ones included.
Tier 3. -/
def Obligations.EncodeOfDecodeIsTheWord : Prop :=
  ∀ (op : Word) (i : Instr), decode op = .instr i → encode i = op

/-- 30 R95: the decoder agrees with the masks and patterns of the opcode table, whose rows are
pairwise disjoint. Tier 2. -/
def Obligations.DecoderFollowsTheOpcodeTable : Prop :=
  (∀ (op : Word) (i : Instr),
    decode op = .instr i → (tableRow i).hits op = true ∧ tableRow i ∈ opcodeTable) ∧
  (∀ (op : Word) (r : OpcodeRow), r ∈ opcodeTable → r.hits op = true →
    ∃ i, decode op = .instr i ∧ tableRow i = r) ∧
  opcodeTable.length = 34 ∧
  opcodeTable.Pairwise (fun r r' => ∀ op : Word, ¬(r.hits op = true ∧ r'.hits op = true))

/-- 30 R98: a word is invalid exactly in the four families of the table. Tier 2. -/
def Obligations.InvalidWordsAreTheFourFamilies : Prop :=
  ∀ op : Word, (∃ why, decode op = .invalid why) ↔
    (op.toNat / 4096 = 0x0 ∧ op.toNat % 256 ≠ 0xE0 ∧ op.toNat % 256 ≠ 0xEE) ∨
    (op.toNat / 4096 = 0x8 ∧ op.toNat % 16 ∈ [0x8, 0x9, 0xA, 0xB, 0xC, 0xD, 0xF]) ∨
    (op.toNat / 4096 = 0xE ∧ op.toNat % 256 ≠ 0x9E ∧ op.toNat % 256 ≠ 0xA1) ∨
    (op.toNat / 4096 = 0xF ∧
      op.toNat % 256 ∉ [0x07, 0x0A, 0x15, 0x18, 0x1E, 0x29, 0x33, 0x55, 0x65])

/-- 30 R95: sample words, one or more of every format, decode to their instructions. Tier 1. -/
def Obligations.SampleWordsDecode : Prop :=
  decode 0x00E0 = .instr (.clearScreen 0) ∧
  decode 0x07EE = .instr (.retFromSub 7) ∧
  decode 0x1234 = .instr (.jmp 0x234) ∧
  decode 0x332A = .instr (.skipEqImm 3 0x2A) ∧
  decode 0x5127 = .instr (.skipEqReg 1 2 7) ∧
  decode 0x8125 = .instr (.sub 1 2) ∧
  decode 0xD125 = .instr (.draw 1 2 5) ∧
  decode 0xE29E = .instr (.skipKeyPressed 2) ∧
  decode 0xF265 = .instr (.loadRegs 2) ∧
  decode 0x0000 = .invalid .zeroFamily ∧
  decode 0x8008 = .invalid .aluFamily ∧
  decode 0xE000 = .invalid .keyFamily ∧
  decode 0xFFFF = .invalid .miscFamily

/-! ## The step -/

/-- 40 R120, R121, R123: `Step()` clause by clause, with the result it returns. A halted core
refuses; a fetch out of range raises with pc unchanged; an invalid word is a 2-byte no-op that
leaves a report; a valid word is executed on the state with pc advanced by 2, and on a silent step
cause and info are 0. `env` is the model's own (log 6); how a halted core stops is log 5.
Tier 1. -/
def Obligations.InterpreterCycle : Prop :=
  ∀ s : State,
    (s.status.halted = true → interpret s = .fault .halted ∧ stepResult s = some .halted) ∧
    (s.status.halted = false → 0xFFF < s.pc.toNat + 1 →
      interpret s = .next (recorded s 7 s.pc true) ∧ stepResult s = some (.fatal 7 s.pc)) ∧
    (s.status.halted = false → s.pc.toNat + 1 ≤ 0xFFF →
      ∀ op : Word, op = Memory.read s.mem s.pc.toNat ++ Memory.read s.mem (s.pc.toNat + 1) →
        (∀ why, decode op = .invalid why →
          interpret s = .next (recorded { s with pc := s.pc + 2, env := s.env + 1 } 1 op false) ∧
          stepResult s = some (.recoverable 1 op)) ∧
        (∀ i, decode op = .instr i →
          interpret s = exec i { s with
            pc := s.pc + 2, env := s.env + 1,
            status := { s.status with cause := 0, info := 0 } } ∧
          ∀ t, interpret s = .next t → stepResult s = some t.status.result))

/-- 40 R120, with what the model's step adds around it: first a free number of ticks of each timer
passes (log 3), then the instruction decoded at pc is executed on the state with pc advanced.
Tier 1. -/
def Obligations.StepRunsTheDecodedInstruction : Prop :=
  ∀ (s : State) (i : Instr),
    s.status.halted = false → s.pc.toNat + 1 ≤ 0xFFF →
    decode (Memory.read s.mem s.pc.toNat ++ Memory.read s.mem (s.pc.toNat + 1)) = .instr i →
    step s = exec i { s with
      pc := s.pc + 2
      dt := tickMany (Config.delayTicks s.env) s.dt
      st := tickMany (Config.soundTicks s.env) s.st
      status := { s.status with cause := 0, info := 0 }
      env := s.env + 1 }

/-- 60 R272, log 3: a step is the ticks that pass, each timer going down by their number and
stopping at 0, and then `Step()`. Tier 1. -/
def Obligations.StepIsTicksThenInterpret : Prop :=
  ∀ s : State, ∃ d e : Byte,
    step s = interpret { s with dt := d, st := e } ∧
    d.toNat = s.dt.toNat - Config.delayTicks s.env ∧
    e.toNat = s.st.toNat - Config.soundTicks s.env

/-- 40 R126, log 5: a halted core executes nothing; its timers can still be ticked; of all the
transactions only reset clears `halted`. Tier 1. -/
def Obligations.OnlyResetLeavesHalted : Prop :=
  ∀ s : State, s.status.halted = true →
    step s = .fault .halted ∧
    (∃ t, act .tickDelay s = .next t ∧ t = { s with dt := t.dt } ∧ t.dt.toNat = s.dt.toNat - 1) ∧
    (∃ t, act .tickSound s = .next t ∧ t = { s with st := t.st } ∧ t.st.toNat = s.st.toNat - 1) ∧
    (∀ e t, act e s = .next t → e ≠ .reset → t.status.halted = true) ∧
    (∀ t, act .reset s = .next t → t.status.halted = false)

/-- 40 R125: a step that is not refused completes silently, or reports one recoverable error, or
raises one fatal error; `seen` gains at most the bit of that one cause and loses none. Tier 2. -/
def Obligations.StepLeavesOneOfThreeStatuses : Prop :=
  ∀ s t : State, interpret s = .next t →
    (t.status = { s.status with cause := 0, info := 0 } ∧ t.status.halted = false) ∨
    (∃ c info, c ∈ [1#4, 5#4, 9#4] ∧
      t.status = ⟨false, c, info, s.status.seen ||| (1#10 <<< c.toNat)⟩) ∨
    (∃ c info, c ∈ [3#4, 4#4, 7#4, 8#4] ∧
      t.status = ⟨true, c, info, s.status.seen ||| (1#10 <<< c.toNat)⟩)

/-- 40 R124, 60 R253, R254, R261: errors are precise. A step that reports or raises changes nothing
but `STATUS`, and pc, which is advanced but for a fetch fault; the recorded info is the word, or
the pc of a fetch fault. Tier 2. -/
def Obligations.ErrorsArePrecise : Prop :=
  ∀ s t : State, interpret s = .next t → t.status.cause ≠ 0 →
    (0xFFF < s.pc.toNat + 1 ∧ t = { s with status := t.status } ∧ t.status.info = s.pc) ∨
    (s.pc.toNat + 1 ≤ 0xFFF ∧
      t = { s with pc := s.pc + 2, status := t.status, env := s.env + 1 } ∧
      t.status.info = Memory.read s.mem s.pc.toNat ++ Memory.read s.mem (s.pc.toNat + 1))

/-- 60 R251: which instructions can report or raise what, and that no other can. Tier 2. -/
def Obligations.OnlyListedCausesAreReported : Prop :=
  ∀ s t : State, interpret s = .next t → t.status.cause ≠ 0 →
    (t.status.cause = 7 ∧ 0xFFF < s.pc.toNat + 1) ∨
    (t.status.cause = 1 ∧ ∃ why, decode s.fetched = .invalid why) ∨
    (t.status.cause = 3 ∧ ∃ nnn, decode s.fetched = .instr (.jsr nnn)) ∨
    (t.status.cause = 4 ∧ ∃ z, decode s.fetched = .instr (.retFromSub z)) ∨
    (t.status.cause = 5 ∧ ∃ x, decode s.fetched = .instr (.fontIndex x)) ∨
    (t.status.cause = 9 ∧ ∃ x, decode s.fetched = .instr (.skipKeyPressed x)) ∨
    (t.status.cause = 9 ∧ ∃ x, decode s.fetched = .instr (.skipKeyNotPressed x)) ∨
    (t.status.cause = 7 ∧ ∃ x y n, decode s.fetched = .instr (.draw x y n)) ∨
    (t.status.cause = 7 ∧ ∃ x, decode s.fetched = .instr (.loadRegs x)) ∨
    ((t.status.cause = 7 ∨ t.status.cause = 8) ∧
      ∃ x, decode s.fetched = .instr (.storeBcd x) ∨ decode s.fetched = .instr (.storeRegs x))

/-- Every step of a core that is not halted is taken: no instruction is refused, none stops the
machine (40 R127, "every step therefore terminates"). Tier 2. -/
def Obligations.EveryLiveStepIsTaken : Prop :=
  ∀ s : State, s.status.halted = false → ∃ t, step s = .next t

/-- 70 R306: on a finished core, at a jump to itself, a step leaves all interpreter state as it was
(the last report is cleared, 40 R125; `env` is the model's own). Tier 2. -/
def Obligations.FinishedCoreStaysFinished : Prop :=
  ∀ s : State, s.finished = true → ∃ t, interpret s = .next t ∧
    t = { s with env := t.env, status := { s.status with cause := 0, info := 0 } } ∧
    t.finished = true

/-! ## Invariants -/

/-- 10 R43: the reset state meets both invariants. Tier 1. -/
def Obligations.ResetMeetsTheInvariants : Prop := Inv State.reset ∧ PcInv State.reset

/-- 10 R27, R34, R41, 60 R250: every step keeps memory canonical with nothing below 0x200 changed,
and `STATUS` one that steps can leave. Tier 3. -/
def Obligations.StepKeepsMemoryAndStatusInvariant : Prop :=
  ∀ s t : State, Inv s → step s = .next t → Inv t

/-- 10 R26: pc never exceeds 0x10FE and no stacked return address exceeds 0x1000, so the 16-bit
wrap of pc is never exercised. Tier 3. -/
def Obligations.StepKeepsPcBounds : Prop :=
  ∀ s t : State, PcInv s → step s = .next t → PcInv t

/-- 60 R272, R289: both invariants hold after every interleaving of steps, ticks, loads and resets.
Tier 3. -/
def Obligations.EveryInterleavingKeepsTheInvariants : Prop :=
  ∀ (es : List Event) (s t : State),
    Inv s → PcInv s → actAll es s = .next t → Inv t ∧ PcInv t

/-- 10 R34: no step writes below 0x200. Tier 2. -/
def Obligations.NoStepWritesBelowProgBase : Prop :=
  ∀ s t : State, step s = .next t →
    ∀ a, a < 0x200 → Memory.read t.mem a = Memory.read s.mem a

/-! ## Which instruction writes what -/

/-- 10 R20, 20 R63: each component but the registers is written only by the instructions its row
names. Tier 2. -/
def Obligations.ComponentsAreWrittenOnlyByTheirInstructions : Prop :=
  ∀ (i : Instr) (s t : State), exec i s = .next t →
    (t.mem ≠ s.mem → ∃ x, i = .storeBcd x ∨ i = .storeRegs x) ∧
    (t.fb ≠ s.fb → (∃ z, i = .clearScreen z) ∨ ∃ x y n, i = .draw x y n) ∧
    (t.collision ≠ s.collision → ∃ x y n, i = .draw x y n) ∧
    (t.stack ≠ s.stack → ∃ nnn, i = .jsr nnn) ∧
    (t.sp ≠ s.sp → (∃ nnn, i = .jsr nnn) ∨ ∃ z, i = .retFromSub z) ∧
    (t.i ≠ s.i → (∃ nnn, i = .movIndex nnn) ∨ ∃ x, i = .addIndex x ∨ i = .fontIndex x) ∧
    (t.dt ≠ s.dt → ∃ x, i = .setDelay x) ∧
    (t.st ≠ s.st → ∃ x, i = .setSound x) ∧
    (t.drawDone ≠ s.drawDone → ∃ x y n, i = .draw x y n) ∧
    t.env = s.env

/-- 10 R24: a register changes only if the instruction names it as its destination, or loads it, or
it is VF and the instruction is one of the six that write a flag. Tier 2. -/
def Obligations.RegistersChangeOnlyAsNamed : Prop :=
  ∀ (i : Instr) (s t : State) (r : Reg), exec i s = .next t → t.reg r ≠ s.reg r →
    destination i = some r ∨ (r = vf ∧ writesFlag i = true) ∨
    ∃ x, i = .loadRegs x ∧ r.toNat ≤ x.toNat

/-- 10 R26: only the listed instructions leave pc elsewhere than at the advanced pc, and none of
them does when it reports or raises. Tier 2. -/
def Obligations.PcMovesOnlyByTransfer : Prop :=
  ∀ (i : Instr) (s t : State), exec i s = .next t → t.pc ≠ s.pc →
    transfersControl i = true ∧ t.status = s.status

/-- 10 R23, R39, R40, 60 R276, 93 U17: `OVF`, `collision`, the sound timer and the stale stack
entries are never read. Two states that differ in them only take steps to states that differ in
them only. It compares two runs, which agree in `env`: the environment gives both the same answers
(log 4, a DESIGN CHOICE of the model), so an equal environment is part of the statement. Tier 3. -/
def Obligations.HiddenStateIsNeverRead : Prop :=
  ∀ s s' t : State, AgreeOnVisible s s' → interpret s = .next t →
    ∃ t', interpret s' = .next t' ∧ AgreeOnVisible t t'

/-! ## Registers and memory -/

/-- 10 R22: a register write stores the raw value modulo 256, sets `OVF` when it fell outside 0 to
255, and changes nothing else. Tier 1. -/
def Obligations.RegisterWriteReducesAndFlags : Prop :=
  ∀ (s : State) (r : Reg) (raw : Int),
    (((s.writeReg r raw).reg r).toNat : Int) = raw % 256 ∧
    ((s.writeReg r raw).ovf = true ↔ raw < 0 ∨ 256 ≤ raw) ∧
    OnlyRegs [r] s (s.writeReg r raw)

/-- 20 R64, R67: a write is read back, and changes the byte of no other address. Tier 2. -/
def Obligations.MemoryReadsBackWhatWasWritten : Prop :=
  ∀ (m : Memory) (a : Nat) (b : Byte), Memory.wf m → a < Config.memSize →
    Memory.wf (Memory.write m a b) ∧
    Memory.read (Memory.write m a b) a = b ∧
    ∀ a', a' ≠ a → Memory.read (Memory.write m a b) a' = Memory.read m a'

/-! ## Control transfer -/

/-- 41 R141: `jmp` writes `nnn` to pc and changes nothing else; its word is 0x1000 plus `nnn`.
Tier 1. -/
def Obligations.JumpSetsPc : Prop :=
  ∀ (nnn : Addr) (s : State),
    (encode (.jmp nnn)).toNat = 0x1000 + nnn.toNat ∧
    ∃ t, exec (.jmp nnn) s = .next t ∧ t.pc.toNat = nnn.toNat ∧ t = { s with pc := t.pc }

/-- 41 R142, 10 R31: `jsr` pushes the advanced pc and goes to `nnn`, or raises StackOverflow with
16 return addresses stacked. Tier 1. -/
def Obligations.CallPushesTheReturnAddress : Prop :=
  ∀ (nnn : Addr) (s : State),
    (encode (.jsr nnn)).toNat = 0x2000 + nnn.toNat ∧
    (∀ h : s.sp.val < 16, ∃ t, exec (.jsr nnn) s = .next t ∧
      t.pc.toNat = nnn.toNat ∧ t.sp.val = s.sp.val + 1 ∧ t.stack[s.sp.val] = s.pc ∧
      (∀ k : Fin 16, k.val ≠ s.sp.val → t.stack[k] = s.stack[k]) ∧
      t = { s with pc := t.pc, sp := t.sp, stack := t.stack }) ∧
    (s.sp.val = 16 →
      exec (.jsr nnn) s = .next (recorded s 3 (encode (.jsr nnn)) true))

/-- 41 R143, 10 R32: `ret_from_sub` pops the newest return address into pc, leaving the entry
itself, or raises StackUnderflow on an empty stack; the ignored bits are part of the recorded word
only. Tier 1. -/
def Obligations.ReturnPopsTheNewestAddress : Prop :=
  ∀ (z : Nibble) (s : State),
    (encode (.retFromSub z)).toNat = 256 * z.toNat + 0xEE ∧
    (∀ k : Fin 16, s.sp.val = k.val + 1 → ∃ t, exec (.retFromSub z) s = .next t ∧
      t.pc = s.stack[k] ∧ t.sp.val = k.val ∧ t = { s with pc := t.pc, sp := t.sp }) ∧
    (s.sp.val = 0 →
      exec (.retFromSub z) s = .next (recorded s 4 (encode (.retFromSub z)) true))

/-- 41 R150: calls nested up to the stack's depth, followed by as many returns, come back to the
pushed addresses in reverse order, and to the depth they started from. Tier 2. -/
def Obligations.CallsAndReturnsAreLastInFirstOut : Prop :=
  ∀ (cs : List (Word × Addr)) (s : State), s.sp.val + cs.length ≤ 16 →
    ∃ t u, callAll cs s = some t ∧ t.sp.val = s.sp.val + cs.length ∧
      returnAll cs.length t = some ((cs.map Prod.fst).reverse, u) ∧ u.sp = s.sp

/-- 41 R144: `jmp_v0` adds `V[0]` to `nnn` with no 12-bit wrap, and writes no flag. Tier 1. -/
def Obligations.ComputedJumpAddsV0 : Prop :=
  ∀ (nnn : Addr) (s : State),
    (encode (.jmpV0 nnn)).toNat = 0xB000 + nnn.toNat ∧
    ∃ t, exec (.jmpV0 nnn) s = .next t ∧ t.pc.toNat = nnn.toNat + (s.reg 0).toNat ∧
      t = { s with pc := t.pc }

/-- 41 R140, R145 to R148: the four skips compare and advance pc by 2 more, whatever the ignored
bits hold, and change nothing else. Tier 1. -/
def Obligations.SkipsCompareAndSkip : Prop :=
  ∀ (x y : Reg) (kk : Byte) (z : Nibble) (s : State),
    exec (.skipEqImm x kk) s = .next { s with pc := if s.reg x = kk then s.pc + 2 else s.pc } ∧
    exec (.skipNeImm x kk) s = .next { s with pc := if s.reg x = kk then s.pc else s.pc + 2 } ∧
    exec (.skipEqReg x y z) s =
      .next { s with pc := if s.reg x = s.reg y then s.pc + 2 else s.pc } ∧
    exec (.skipNeReg x y z) s =
      .next { s with pc := if s.reg x = s.reg y then s.pc else s.pc + 2 } ∧
    (encode (.skipEqImm x kk)).toNat = 0x3000 + 256 * x.toNat + kk.toNat ∧
    (encode (.skipNeImm x kk)).toNat = 0x4000 + 256 * x.toNat + kk.toNat ∧
    (encode (.skipEqReg x y z)).toNat = 0x5000 + 256 * x.toNat + 16 * y.toNat + z.toNat ∧
    (encode (.skipNeReg x y z)).toNat = 0x9000 + 256 * x.toNat + 16 * y.toNat + z.toNat

/-! ## Registers and the ALU -/

/-- 42 R160, R162: `mov_imm` and `mov` write the constant or the other register to `V[x]`, VF
included when `x` is 15, and leave `OVF` 0. Tier 1. -/
def Obligations.MovesCopyTheirSource : Prop :=
  ∀ (x y : Reg) (kk : Byte) (s : State),
    (encode (.movImm x kk)).toNat = 0x6000 + 256 * x.toNat + kk.toNat ∧
    (encode (.mov x y)).toNat = 0x8000 + 256 * x.toNat + 16 * y.toNat ∧
    (∃ t, exec (.movImm x kk) s = .next t ∧ t.reg x = kk ∧ t.ovf = false ∧ OnlyRegs [x] s t) ∧
    (∃ t, exec (.mov x y) s = .next t ∧ t.reg x = s.reg y ∧ t.ovf = false ∧ OnlyRegs [x] s t)

/-- 42 R161: `add_imm` wraps modulo 256; VF is not written unless `x` is 15; `OVF` records the
carry. Tier 1. -/
def Obligations.AddImmediateSetsNoFlag : Prop :=
  ∀ (x : Reg) (kk : Byte) (s : State),
    (encode (.addImm x kk)).toNat = 0x7000 + 256 * x.toNat + kk.toNat ∧
    ∃ t, exec (.addImm x kk) s = .next t ∧
      (t.reg x).toNat = ((s.reg x).toNat + kk.toNat) % 256 ∧
      (t.ovf = true ↔ 256 ≤ (s.reg x).toNat + kk.toNat) ∧
      OnlyRegs [x] s t

/-- 42 R163, R164, R165: the three logic operations, bit by bit; VF is not written unless `x` is
15. Tier 1. -/
def Obligations.LogicWritesNoFlag : Prop :=
  ∀ (x y : Reg) (s : State),
    (encode (.orReg x y)).toNat = 0x8001 + 256 * x.toNat + 16 * y.toNat ∧
    (encode (.andReg x y)).toNat = 0x8002 + 256 * x.toNat + 16 * y.toNat ∧
    (encode (.xorReg x y)).toNat = 0x8003 + 256 * x.toNat + 16 * y.toNat ∧
    (∃ t, exec (.orReg x y) s = .next t ∧ OnlyRegs [x] s t ∧ t.ovf = false ∧
      ∀ b, (t.reg x).getLsbD b = ((s.reg x).getLsbD b || (s.reg y).getLsbD b)) ∧
    (∃ t, exec (.andReg x y) s = .next t ∧ OnlyRegs [x] s t ∧ t.ovf = false ∧
      ∀ b, (t.reg x).getLsbD b = ((s.reg x).getLsbD b && (s.reg y).getLsbD b)) ∧
    (∃ t, exec (.xorReg x y) s = .next t ∧ OnlyRegs [x] s t ∧ t.ovf = false ∧
      ∀ b, (t.reg x).getLsbD b = ((s.reg x).getLsbD b != (s.reg y).getLsbD b))

/-- 42 R166: `add` wraps modulo 256 and VF is the carry, the flag winning when `x` is 15; both
operands are read first. Tier 1. -/
def Obligations.AddSetsCarry : Prop :=
  ∀ (x y : Reg) (s : State),
    (encode (.add x y)).toNat = 0x8004 + 256 * x.toNat + 16 * y.toNat ∧
    ∃ t, exec (.add x y) s = .next t ∧
      (t.reg vf).toNat = (if 256 ≤ (s.reg x).toNat + (s.reg y).toNat then 1 else 0) ∧
      (x ≠ vf → (t.reg x).toNat = ((s.reg x).toNat + (s.reg y).toNat) % 256) ∧
      t.ovf = false ∧ OnlyRegs [x, vf] s t

/-- 42 R167, R169, R174: `sub` and `subn` wrap modulo 256 and VF is 1 when no borrow occurred.
Tier 1. -/
def Obligations.SubtractionsSetNoBorrow : Prop :=
  ∀ (x y : Reg) (s : State),
    (encode (.sub x y)).toNat = 0x8005 + 256 * x.toNat + 16 * y.toNat ∧
    (encode (.subn x y)).toNat = 0x8007 + 256 * x.toNat + 16 * y.toNat ∧
    (∃ t, exec (.sub x y) s = .next t ∧
      (t.reg vf).toNat = (if (s.reg y).toNat ≤ (s.reg x).toNat then 1 else 0) ∧
      (x ≠ vf → (t.reg x).toNat = ((s.reg x).toNat + 256 - (s.reg y).toNat) % 256) ∧
      t.ovf = false ∧ OnlyRegs [x, vf] s t) ∧
    (∃ t, exec (.subn x y) s = .next t ∧
      (t.reg vf).toNat = (if (s.reg x).toNat ≤ (s.reg y).toNat then 1 else 0) ∧
      (x ≠ vf → (t.reg x).toNat = ((s.reg y).toNat + 256 - (s.reg x).toNat) % 256) ∧
      t.ovf = false ∧ OnlyRegs [x, vf] s t)

/-- 42 R168, R170, R175: `shr` and `shl` shift `V[x]` in place whatever `y` names, and VF is the
bit shifted out. Tier 1. -/
def Obligations.ShiftsSetTheBitShiftedOut : Prop :=
  ∀ (x y : Reg) (s : State),
    (encode (.shr x y)).toNat = 0x8006 + 256 * x.toNat + 16 * y.toNat ∧
    (encode (.shl x y)).toNat = 0x800E + 256 * x.toNat + 16 * y.toNat ∧
    (∃ t, exec (.shr x y) s = .next t ∧
      (t.reg vf).toNat = (s.reg x).toNat % 2 ∧
      (x ≠ vf → (t.reg x).toNat = (s.reg x).toNat / 2) ∧
      t.ovf = false ∧ OnlyRegs [x, vf] s t) ∧
    (∃ t, exec (.shl x y) s = .next t ∧
      (t.reg vf).toNat = (s.reg x).toNat / 128 ∧
      (x ≠ vf → (t.reg x).toNat = 2 * (s.reg x).toNat % 256) ∧
      t.ovf = false ∧ OnlyRegs [x, vf] s t)

/-- 42 R171, 60 R285: `rand` writes the environment's draw, which is between 0 and `kk`, and no
flag. The draw is a free value (log 4): nothing is said of which. Tier 1. -/
def Obligations.RandomDrawStaysWithinItsBound : Prop :=
  ∀ (x : Reg) (kk : Byte) (s : State),
    (encode (.rand x kk)).toNat = 0xC000 + 256 * x.toNat + kk.toNat ∧
    ∃ t, exec (.rand x kk) s = .next t ∧
      (t.reg x).toNat = (Config.randomDraw s.env kk).val ∧
      (t.reg x).toNat ≤ kk.toNat ∧ t.ovf = false ∧ OnlyRegs [x] s t

/-! ## The index register and memory -/

/-- 43 R190, R191: `mov_index` zero-extends `nnn`; `add_index` wraps modulo 2^16 and writes no
flag. Tier 1. -/
def Obligations.IndexIsSetAndAddedTo : Prop :=
  ∀ (nnn : Addr) (x : Reg) (s : State),
    (encode (.movIndex nnn)).toNat = 0xA000 + nnn.toNat ∧
    (encode (.addIndex x)).toNat = 0xF01E + 256 * x.toNat ∧
    (∃ t, exec (.movIndex nnn) s = .next t ∧ t.i.toNat = nnn.toNat ∧ t = { s with i := t.i }) ∧
    (∃ t, exec (.addIndex x) s = .next t ∧
      t.i.toNat = (s.i.toNat + (s.reg x).toNat) % 65536 ∧ t = { s with i := t.i })

/-- 43 R192: `font_index` sets `I` to five times a digit, or reports InvalidFontIndex on a value
above 15 and leaves `I`. Tier 1. -/
def Obligations.FontIndexAddressesTheGlyph : Prop :=
  ∀ (x : Reg) (s : State),
    (encode (.fontIndex x)).toNat = 0xF029 + 256 * x.toNat ∧
    ((s.reg x).toNat ≤ 15 → ∃ t, exec (.fontIndex x) s = .next t ∧
      t.i.toNat = 5 * (s.reg x).toNat ∧ t = { s with i := t.i }) ∧
    (15 < (s.reg x).toNat →
      exec (.fontIndex x) s = .next (recorded s 5 (encode (.fontIndex x)) false))

/-- 43 R193: `store_bcd` stores the three decimal digits of `V[x]` at `I`, `I + 1`, `I + 2`, and
nothing else, when they are in range and writable; out of range it raises MemoryRangeFault, below
0x200 WriteProtectFault, and nothing is written. Tier 1. -/
def Obligations.BcdDigitsAreStored : Prop :=
  ∀ (x : Reg) (s : State),
    (encode (.storeBcd x)).toNat = 0xF033 + 256 * x.toNat ∧
    (Memory.wf s.mem → 0x200 ≤ s.i.toNat → s.i.toNat + 2 ≤ 0xFFF →
      ∃ t, exec (.storeBcd x) s = .next t ∧
        (Memory.read t.mem s.i.toNat).toNat = (s.reg x).toNat / 100 ∧
        (Memory.read t.mem (s.i.toNat + 1)).toNat = (s.reg x).toNat / 10 % 10 ∧
        (Memory.read t.mem (s.i.toNat + 2)).toNat = (s.reg x).toNat % 10 ∧
        OnlyStored s.i.toNat 3 s t) ∧
    (0xFFF < s.i.toNat + 2 →
      exec (.storeBcd x) s = .next (recorded s 7 (encode (.storeBcd x)) true)) ∧
    (s.i.toNat < 0x200 →
      exec (.storeBcd x) s = .next (recorded s 8 (encode (.storeBcd x)) true))

/-- 43 R194: `store_regs` stores `V[0]` to `V[x]` at `I` upward, and nothing else, when they are in
range and writable; out of range it raises MemoryRangeFault, below 0x200 WriteProtectFault, and
nothing is written, not even the bytes that are individually legal. Tier 1. -/
def Obligations.RegisterBlockIsStored : Prop :=
  ∀ (x : Reg) (s : State),
    (encode (.storeRegs x)).toNat = 0xF055 + 256 * x.toNat ∧
    (Memory.wf s.mem → 0x200 ≤ s.i.toNat → s.i.toNat + x.toNat ≤ 0xFFF →
      ∃ t, exec (.storeRegs x) s = .next t ∧
        (∀ r : Reg, r.toNat ≤ x.toNat → Memory.read t.mem (s.i.toNat + r.toNat) = s.reg r) ∧
        OnlyStored s.i.toNat (x.toNat + 1) s t) ∧
    (0xFFF < s.i.toNat + x.toNat →
      exec (.storeRegs x) s = .next (recorded s 7 (encode (.storeRegs x)) true)) ∧
    (s.i.toNat < 0x200 →
      exec (.storeRegs x) s = .next (recorded s 8 (encode (.storeRegs x)) true))

/-- 43 R195: `load_regs` loads `V[0]` to `V[x]` from `I` upward when they are in range, from the
font and the low memory too; VF is written only when `x` is 15, `OVF` is left 0, nothing else
changes. Out of range it raises MemoryRangeFault and no register is changed. Tier 1. -/
def Obligations.RegisterBlockIsLoaded : Prop :=
  ∀ (x : Reg) (s : State),
    (encode (.loadRegs x)).toNat = 0xF065 + 256 * x.toNat ∧
    (s.i.toNat + x.toNat ≤ 0xFFF → ∃ t, exec (.loadRegs x) s = .next t ∧
      (∀ r : Reg, t.reg r =
        if r.toNat ≤ x.toNat then Memory.read s.mem (s.i.toNat + r.toNat) else s.reg r) ∧
      t.ovf = false ∧ SameMemory s t ∧ t = { s with v := t.v, ovf := false }) ∧
    (0xFFF < s.i.toNat + x.toNat →
      exec (.loadRegs x) s = .next (recorded s 7 (encode (.loadRegs x)) true))

/-- 43 R194, R195: a block that `store_regs` stored without an error is loaded back whole by
`load_regs` on any later state with the same memory and the same `I`. Tier 2. -/
def Obligations.StoredBlockLoadsBack : Prop :=
  ∀ (x : Reg) (s t u : State), Memory.wf s.mem → exec (.storeRegs x) s = .next t →
    t.status = s.status → s.status.cause = 0 → u.mem = t.mem → u.i = s.i →
    ∃ w, exec (.loadRegs x) u = .next w ∧ ∀ r : Reg, r.toNat ≤ x.toNat → w.reg r = s.reg r

/-- 20 R78: a store into the instruction stream is seen by the very next fetch: after a
`store_regs` at pc, the next step runs the word whose bytes are `V[0]` and `V[1]`. Tier 2. -/
def Obligations.NextFetchSeesTheStore : Prop :=
  ∀ (x : Reg) (s t : State) (i : Instr), Memory.wf s.mem → 1 ≤ x.toNat → 0x200 ≤ s.i.toNat →
    s.i.toNat + x.toNat ≤ 0xFFF → s.pc = s.i → s.status.halted = false →
    exec (.storeRegs x) s = .next t → decode (s.reg 0 ++ s.reg 1) = .instr i →
    interpret t = exec i t.advance

/-! ## The framebuffer -/

/-- 44 R213, R210: `clear_screen` zeroes every byte of the grid and changes nothing else, whatever
the ignored bits hold. Tier 1. -/
def Obligations.ClearZeroesTheGrid : Prop :=
  ∀ (z : Nibble) (s : State),
    (encode (.clearScreen z)).toNat = 256 * z.toNat + 0xE0 ∧
    ∃ t, exec (.clearScreen z) s = .next t ∧ (∀ r c, Framebuffer.byte t.fb r c = 0) ∧
      t = { s with fb := t.fb }

/-- 44 R212: `draw` composites the `n` bytes at `I` at (`V[x]`, `V[y]`), sets `collision`, writes
it to VF last, emits one `draw_done` (log 7), and changes nothing else; it reads nothing and cannot
fault when `n` is 0. Otherwise, out of range, it raises MemoryRangeFault and nothing is drawn.
Tier 1. -/
def Obligations.DrawCompositesTheSprite : Prop :=
  ∀ (x y : Reg) (n : Nibble) (s : State),
    (encode (.draw x y n)).toNat = 0xD000 + 256 * x.toNat + 16 * y.toNat + n.toNat ∧
    (n = 0 ∨ s.i.toNat + n.toNat - 1 ≤ 0xFFF → ∃ t, exec (.draw x y n) s = .next t ∧
      (t.fb, t.collision) =
        Framebuffer.draw s.fb (s.reg x).toNat (s.reg y).toNat (sprite s n.toNat) ∧
      (t.reg vf).toNat = (if t.collision then 1 else 0) ∧
      (∀ r, r ≠ vf → t.reg r = s.reg r) ∧ SameMemory s t ∧
      t = { s with v := t.v, ovf := false, fb := t.fb, collision := t.collision,
                   drawDone := s.drawDone + 1 }) ∧
    (1 ≤ n.toNat → 0xFFF < s.i.toNat + n.toNat - 1 →
      exec (.draw x y n) s = .next (recorded s 7 (encode (.draw x y n)) true))

/-- 44 R211, in pixel terms: each sprite pixel is exclusive-ored into the pixel it falls on, both
coordinates wrapping; no other pixel changes; a collision is a pixel that was 1 and received a 1.
The grid has the model's fixed size (log 1). Tier 2. -/
def Obligations.DrawIsPixelwiseExclusiveOr : Prop :=
  ∀ (fb : Framebuffer) (x y : Nat) (S : List Byte), S.length ≤ 15 →
    (∀ (k : Nat) (hk : k < S.length) (j : Nat), j < 8 →
      Framebuffer.pixel (Framebuffer.draw fb x y S).1 (spriteCol x j) (spriteRow y k) =
        (Framebuffer.pixel fb (spriteCol x j) (spriteRow y k) != (S[k]).getLsbD (7 - j))) ∧
    (∀ px py, px < Config.fbWidth → py < Config.fbHeight →
      (∀ k j, k < S.length → j < 8 → ¬(px = spriteCol x j ∧ py = spriteRow y k)) →
      Framebuffer.pixel (Framebuffer.draw fb x y S).1 px py = Framebuffer.pixel fb px py) ∧
    ((Framebuffer.draw fb x y S).2 = true ↔
      ∃ (k : Nat) (hk : k < S.length) (j : Nat), j < 8 ∧
        Framebuffer.pixel fb (spriteCol x j) (spriteRow y k) = true ∧ (S[k]).getLsbD (7 - j) = true)

/-- 44 R214 (a): drawing a sprite twice at one place restores the grid, and the second draw reports
a collision exactly when the first one set a pixel. Tier 2. -/
def Obligations.SecondDrawUndoesTheFirst : Prop :=
  ∀ (fb : Framebuffer) (x y : Nat) (S : List Byte), S.length ≤ 15 →
    (Framebuffer.draw (Framebuffer.draw fb x y S).1 x y S).1 = fb ∧
    ((Framebuffer.draw (Framebuffer.draw fb x y S).1 x y S).2 = true ↔
      ∃ px py, px < Config.fbWidth ∧ py < Config.fbHeight ∧
        Framebuffer.pixel fb px py = false ∧
        Framebuffer.pixel (Framebuffer.draw fb x y S).1 px py = true)

/-- 44 R214 (b): after `clear_screen` a `draw` shows exactly its sprite, as on a grid of zeros, and
reports no collision. Tier 2. -/
def Obligations.DrawAfterClearShowsTheSprite : Prop :=
  ∀ (z : Nibble) (x y : Reg) (n : Nibble) (s u t : State),
    n = 0 ∨ s.i.toNat + n.toNat - 1 ≤ 0xFFF →
    exec (.clearScreen z) s = .next u → exec (.draw x y n) u = .next t →
    t.reg vf = 0 ∧
    ∀ px py, px < Config.fbWidth → py < Config.fbHeight →
      (Framebuffer.pixel t.fb px py = true ↔
        ∃ k j, k < n.toNat ∧ j < 8 ∧ px = spriteCol (s.reg x).toNat j ∧
          py = spriteRow (s.reg y).toNat k ∧
          (Memory.read s.mem (s.i.toNat + k)).getLsbD (7 - j) = true)

/-! ## Keys and timers -/

/-- 45 R230, R231, R236: a key skip on a key number skips or not as the environment answers, a free
value (log 4); on a value above 15 it reports InvalidKeyIndex and does not skip. Tier 1. -/
def Obligations.KeySkipsFollowTheKeyState : Prop :=
  ∀ (x : Reg) (s : State),
    (encode (.skipKeyPressed x)).toNat = 0xE09E + 256 * x.toNat ∧
    (encode (.skipKeyNotPressed x)).toNat = 0xE0A1 + 256 * x.toNat ∧
    ((s.reg x).toNat ≤ 15 →
      exec (.skipKeyPressed x) s = .next { s with
        pc := if Config.keyPressed s.env (BitVec.ofNat 4 (s.reg x).toNat) then s.pc + 2
              else s.pc } ∧
      exec (.skipKeyNotPressed x) s = .next { s with
        pc := if Config.keyPressed s.env (BitVec.ofNat 4 (s.reg x).toNat) then s.pc
              else s.pc + 2 }) ∧
    (15 < (s.reg x).toNat →
      exec (.skipKeyPressed x) s =
        .next (recorded s 9 (encode (.skipKeyPressed x)) false) ∧
      exec (.skipKeyNotPressed x) s =
        .next (recorded s 9 (encode (.skipKeyNotPressed x)) false))

/-- 45 R232: `wait_key` always completes its step. With a key it is stored in `V[x]`; with none pc
goes back by 2, to the instruction itself, and nothing else changes. Which is a free value (log 4);
both are stated. Tier 1. -/
def Obligations.WaitKeyStoresTheKeyOrRepeats : Prop :=
  ∀ (x : Reg) (s : State),
    (encode (.waitKey x)).toNat = 0xF00A + 256 * x.toNat ∧
    (∃ t, exec (.waitKey x) s = .next t ∧
      (∀ k, Config.nextKey s.env = some k →
        (t.reg x).toNat = k.toNat ∧ t.ovf = false ∧ OnlyRegs [x] s t) ∧
      (Config.nextKey s.env = none → t = { s with pc := s.pc - 2 })) ∧
    (∀ k : Nibble, ((s.acceptKey x (some k)).reg x).toNat = k.toNat ∧
      (s.acceptKey x (some k)).ovf = false ∧ OnlyRegs [x] s (s.acceptKey x (some k))) ∧
    s.acceptKey x none = { s with pc := s.pc - 2 }

/-- 45 R233, R234, R235: `get_delay` reads the live delay timer, `set_delay` and `set_sound`
replace a timer's value, and nothing else changes. Tier 1. -/
def Obligations.TimerInstructionsReadAndSet : Prop :=
  ∀ (x : Reg) (s : State),
    (encode (.getDelay x)).toNat = 0xF007 + 256 * x.toNat ∧
    (encode (.setDelay x)).toNat = 0xF015 + 256 * x.toNat ∧
    (encode (.setSound x)).toNat = 0xF018 + 256 * x.toNat ∧
    (∃ t, exec (.getDelay x) s = .next t ∧ t.reg x = s.dt ∧ t.ovf = false ∧ OnlyRegs [x] s t) ∧
    exec (.setDelay x) s = .next { s with dt := s.reg x } ∧
    exec (.setSound x) s = .next { s with st := s.reg x }

/-- 60 R271: a tick decrements its own timer if it is above 0 and touches nothing else. Tier 1. -/
def Obligations.TickDecrementsOneTimer : Prop :=
  ∀ s : State,
    (∃ t, act .tickDelay s = .next t ∧ t = { s with dt := t.dt } ∧
      (0 < s.dt.toNat → t.dt.toNat + 1 = s.dt.toNat) ∧ (s.dt.toNat = 0 → t.dt = s.dt)) ∧
    (∃ t, act .tickSound s = .next t ∧ t = { s with st := t.st } ∧
      (0 < s.st.toNat → t.st.toNat + 1 = s.st.toNat) ∧ (s.st.toNat = 0 → t.st = s.st))

/-! ## Reset and load -/

/-- 10 R43, 70 R300: the reset values, and that `Reset()` reaches them from every state; the
model's own counters go on (log 6, log 7). The zeros of the registers, `OVF`, `collision`, `I`, `SP`,
the stack, memory outside the font and the grid are the spec's decision D4, taken by the model where
R43 lets a model leave them unspecified (log 9, DESIGN CHOICE); the size of the grid and the font's
bytes are the defaults the model fixes (log 1, log 2, DESIGN CHOICE). Tier 1. -/
def Obligations.ResetValues : Prop :=
  ∀ s t : State, act .reset s = .next t →
    t.pc = 0x0200 ∧ t.i = 0 ∧ t.sp.val = 0 ∧ t.dt = 0 ∧ t.st = 0 ∧
    t.ovf = false ∧ t.collision = false ∧
    t.status = { halted := false, cause := 0, info := 0, seen := 0 } ∧
    (∀ r, t.reg r = 0) ∧ (∀ k : Fin 16, t.stack[k] = 0) ∧
    (∀ r c, Framebuffer.byte t.fb r c = 0) ∧
    (∀ a, (h : a < Config.font.length) → Memory.read t.mem a = Config.font[a]) ∧
    (∀ a, 0x050 ≤ a → Memory.read t.mem a = 0) ∧
    t = { State.reset with env := s.env, drawDone := s.drawDone }

/-- 60 R281: `Load` copies an image of at most 3584 bytes to 0x200 upward and changes nothing else;
a longer one is refused as a whole. Tier 1. -/
def Obligations.LoadCopiesTheImage : Prop :=
  ∀ (s : State) (bytes : List Byte),
    (3584 < bytes.length → s.load bytes = (.loadOverflow, s)) ∧
    (bytes.length ≤ 3584 → Memory.wf s.mem → ∃ t, s.load bytes = (.ok, t) ∧
      (∀ (k : Nat) (hk : k < bytes.length), Memory.read t.mem (0x200 + k) = bytes[k]) ∧
      OnlyStored 0x200 bytes.length s t)

/-- 70 R303: after `Reset()` and `Load` the first step runs the instruction in the first two bytes
of the image, if they are one. Tier 2. -/
def Obligations.FirstStepRunsTheFirstImageWord : Prop :=
  ∀ (s t : State) (hi lo : Byte) (rest : List Byte) (i : Instr),
    s.resetCore.load (hi :: lo :: rest) = (.ok, t) → decode (hi ++ lo) = .instr i →
    step t = exec i { t with pc := 0x0202, env := t.env + 1 }

/-- Log 12: a word placed where the next step fetches is the instruction that step runs, from every
state whose memory is canonical. Tier 2. -/
def Obligations.PlacedWordRunsNext : Prop :=
  ∀ (s : State) (w : Nat) (i : Instr), Memory.wf s.mem →
    decode (BitVec.ofNat 16 w) = .instr i →
    step (s.withFetchWord 16 w) = exec i (s.withFetchWord 16 w).passTime.advance

/-- 60 R275, R276, R286, R288, 10 R38: what the host sees and does between steps. `st_active` is
1 exactly while the sound timer is above 0; `abort` on both timers sets them to 0 and nothing else;
the bitmap's pixel at column `px` of row `py` is bit `7 - px mod 8` of the byte that holds it (its
size is log 1's); the register dump lists each register with its value. That the memory dump lists the
even addresses, with the byte at the lower address in the upper half of each word, is the model's
choice and no rule of the spec (log 19, DESIGN CHOICE). Tier 1. -/
def Obligations.OutputsShowTheState : Prop :=
  ∀ s : State,
    (s.stActive = true ↔ 0 < s.st.toNat) ∧
    s.abortTimers = { s with dt := 0, st := 0 } ∧
    s.bitmap.length = 32 ∧
    (∀ py px, py < 32 → px < 64 → s.bitmap[py]?.bind (fun row => row[px]?) =
      some ((Framebuffer.byte s.fb (rowOf py) (colOf (px / 8))).getLsbD (7 - px % 8))) ∧
    s.memoryDump.length = 2048 ∧
    (∀ k, k < 2048 → s.memoryDump[k]? =
      some (2 * k, Memory.read s.mem (2 * k) ++ Memory.read s.mem (2 * k + 1))) ∧
    s.registerDump.length = 16 ∧
    (∀ r : Reg, s.registerDump[r.toNat]? = some (r.toNat, s.reg r))
end

