-- ==== Sys2Proof/Laws/Decode.lean ====
section
/-! SUPPORT. The fields of a word built from fields, and a word from its fields (30 R91). -/

namespace Sys2Proof

theorem ofNibbles_toNat (t x y n : Nibble) :
    (ofNibbles t x y n).toNat = 4096 * t.toNat + 256 * x.toNat + 16 * y.toNat + n.toNat := by
  simp only [ofNibbles, BitVec.toNat_append]
  have := n.isLt; have := y.isLt; have := x.isLt
  rw [← Nat.shiftLeft_add_eq_or_of_lt y.isLt, ← Nat.shiftLeft_add_eq_or_of_lt x.isLt,
    ← Nat.shiftLeft_add_eq_or_of_lt n.isLt]
  simp only [Nat.shiftLeft_eq]
  omega

theorem ofXK_toNat (t x : Nibble) (kk : Byte) :
    (ofXK t x kk).toNat = 4096 * t.toNat + 256 * x.toNat + kk.toNat := by
  simp only [ofXK, BitVec.toNat_append]
  rw [← Nat.shiftLeft_add_eq_or_of_lt x.isLt, ← Nat.shiftLeft_add_eq_or_of_lt kk.isLt]
  simp only [Nat.shiftLeft_eq]
  omega

theorem ofA_toNat (t : Nibble) (nnn : Addr) :
    (ofA t nnn).toNat = 4096 * t.toNat + nnn.toNat := by
  simp only [ofA, BitVec.toNat_append]
  rw [← Nat.shiftLeft_add_eq_or_of_lt nnn.isLt]
  simp only [Nat.shiftLeft_eq]
  omega

theorem fieldT_toNat (op : Word) : (fieldT op).toNat = op.toNat / 4096 := by
  have := op.isLt
  simp [fieldT, BitVec.extractLsb'_toNat, Nat.shiftRight_eq_div_pow]; omega

theorem fieldX_toNat (op : Word) : (fieldX op).toNat = op.toNat / 256 % 16 := by
  simp [fieldX, BitVec.extractLsb'_toNat, Nat.shiftRight_eq_div_pow]

theorem fieldY_toNat (op : Word) : (fieldY op).toNat = op.toNat / 16 % 16 := by
  simp [fieldY, BitVec.extractLsb'_toNat, Nat.shiftRight_eq_div_pow]

theorem fieldN_toNat (op : Word) : (fieldN op).toNat = op.toNat % 16 := by
  simp [fieldN, BitVec.extractLsb'_toNat]

theorem fieldKK_toNat (op : Word) : (fieldKK op).toNat = op.toNat % 256 := by
  simp [fieldKK, BitVec.extractLsb'_toNat]

theorem fieldNNN_toNat (op : Word) : (fieldNNN op).toNat = op.toNat % 4096 := by
  simp [fieldNNN, BitVec.extractLsb'_toNat]

/-! ## The fields of a built word -/

@[simp] theorem fieldT_ofNibbles (t x y n : Nibble) : fieldT (ofNibbles t x y n) = t := by
  apply BitVec.eq_of_toNat_eq; rw [fieldT_toNat, ofNibbles_toNat]
  have := x.isLt; have := y.isLt; have := n.isLt; omega

@[simp] theorem fieldX_ofNibbles (t x y n : Nibble) : fieldX (ofNibbles t x y n) = x := by
  apply BitVec.eq_of_toNat_eq; rw [fieldX_toNat, ofNibbles_toNat]
  have := x.isLt; have := y.isLt; have := n.isLt; omega

@[simp] theorem fieldY_ofNibbles (t x y n : Nibble) : fieldY (ofNibbles t x y n) = y := by
  apply BitVec.eq_of_toNat_eq; rw [fieldY_toNat, ofNibbles_toNat]
  have := y.isLt; have := n.isLt; omega

@[simp] theorem fieldN_ofNibbles (t x y n : Nibble) : fieldN (ofNibbles t x y n) = n := by
  apply BitVec.eq_of_toNat_eq; rw [fieldN_toNat, ofNibbles_toNat]
  have := n.isLt; omega

@[simp] theorem fieldT_ofXK (t x : Nibble) (kk : Byte) : fieldT (ofXK t x kk) = t := by
  apply BitVec.eq_of_toNat_eq; rw [fieldT_toNat, ofXK_toNat]
  have := x.isLt; have := kk.isLt; omega

@[simp] theorem fieldX_ofXK (t x : Nibble) (kk : Byte) : fieldX (ofXK t x kk) = x := by
  apply BitVec.eq_of_toNat_eq; rw [fieldX_toNat, ofXK_toNat]
  have := x.isLt; have := kk.isLt; omega

@[simp] theorem fieldKK_ofXK (t x : Nibble) (kk : Byte) : fieldKK (ofXK t x kk) = kk := by
  apply BitVec.eq_of_toNat_eq; rw [fieldKK_toNat, ofXK_toNat]
  have := kk.isLt; omega

@[simp] theorem fieldT_ofA (t : Nibble) (nnn : Addr) : fieldT (ofA t nnn) = t := by
  apply BitVec.eq_of_toNat_eq; rw [fieldT_toNat, ofA_toNat]
  have := nnn.isLt; omega

@[simp] theorem fieldNNN_ofA (t : Nibble) (nnn : Addr) : fieldNNN (ofA t nnn) = nnn := by
  apply BitVec.eq_of_toNat_eq; rw [fieldNNN_toNat, ofA_toNat]
  have := nnn.isLt; omega

/-! ## A word from its fields -/

theorem ofNibbles_fields (op : Word) :
    ofNibbles (fieldT op) (fieldX op) (fieldY op) (fieldN op) = op := by
  apply BitVec.eq_of_toNat_eq
  rw [ofNibbles_toNat, fieldT_toNat, fieldX_toNat, fieldY_toNat, fieldN_toNat]; omega

theorem ofXK_fields (op : Word) : ofXK (fieldT op) (fieldX op) (fieldKK op) = op := by
  apply BitVec.eq_of_toNat_eq
  rw [ofXK_toNat, fieldT_toNat, fieldX_toNat, fieldKK_toNat]; omega

theorem ofA_fields (op : Word) : ofA (fieldT op) (fieldNNN op) = op := by
  apply BitVec.eq_of_toNat_eq
  rw [ofA_toNat, fieldT_toNat, fieldNNN_toNat]; omega

/-- The bytes of a word put together again (20 R60). -/
theorem wordOfBytes_toNat (hi lo : Byte) : (wordOfBytes hi lo).toNat = 256 * hi.toNat + lo.toNat := by
  simp only [wordOfBytes, BitVec.toNat_append]
  rw [← Nat.shiftLeft_add_eq_or_of_lt lo.isLt]
  simp only [Nat.shiftLeft_eq]
  omega

/-! ## Masks (30 R95) -/

theorem ofNibbles_and (t x y n t' x' y' n' : Nibble) :
    ofNibbles t x y n &&& ofNibbles t' x' y' n' =
      ofNibbles (t &&& t') (x &&& x') (y &&& y') (n &&& n') := by
  unfold ofNibbles
  refine (BitVec.and_append (x₁ := t ++ x ++ y) (x₂ := t' ++ x' ++ y')).trans ?_
  rw [BitVec.and_append, BitVec.and_append]

theorem ofXK_and (t x t' x' : Nibble) (kk kk' : Byte) :
    ofXK t x kk &&& ofXK t' x' kk' = ofXK (t &&& t') (x &&& x') (kk &&& kk') := by
  unfold ofXK
  refine (BitVec.and_append (x₁ := t ++ x) (x₂ := t' ++ x')).trans ?_
  rw [BitVec.and_append]

theorem ofA_and (t t' : Nibble) (nnn nnn' : Addr) :
    ofA t nnn &&& ofA t' nnn' = ofA (t &&& t') (nnn &&& nnn') :=
  BitVec.and_append

end Sys2Proof
end

