-- ==== Sys2Proof/Laws/State.lean ====
section
/-! SUPPORT. What each named update of the state leaves in each field: one lemma for each update
and field, so that no proof unfolds an update. -/

namespace Sys2Proof.Machine

/-! ## Registers read through `reg` -/

@[simp] theorem State.reg_eq (s : State) (r : Reg) : s.v[r.toNat]'(r.isLt) = s.reg r := rfl

/-! ## storeBytes -/

@[simp] theorem State.storeBytes_v (s : State) (a : Nat) (bs : List Byte) :
    (s.storeBytes a bs).v = s.v := rfl

@[simp] theorem State.storeBytes_ovf (s : State) (a : Nat) (bs : List Byte) :
    (s.storeBytes a bs).ovf = s.ovf := rfl

@[simp] theorem State.storeBytes_pc (s : State) (a : Nat) (bs : List Byte) :
    (s.storeBytes a bs).pc = s.pc := rfl

@[simp] theorem State.storeBytes_i (s : State) (a : Nat) (bs : List Byte) :
    (s.storeBytes a bs).i = s.i := rfl

@[simp] theorem State.storeBytes_sp (s : State) (a : Nat) (bs : List Byte) :
    (s.storeBytes a bs).sp = s.sp := rfl

@[simp] theorem State.storeBytes_stack (s : State) (a : Nat) (bs : List Byte) :
    (s.storeBytes a bs).stack = s.stack := rfl

@[simp] theorem State.storeBytes_mem (s : State) (a : Nat) (bs : List Byte) :
    (s.storeBytes a bs).mem = Memory.writeBytes s.mem a bs := rfl

@[simp] theorem State.storeBytes_fb (s : State) (a : Nat) (bs : List Byte) :
    (s.storeBytes a bs).fb = s.fb := rfl

@[simp] theorem State.storeBytes_collision (s : State) (a : Nat) (bs : List Byte) :
    (s.storeBytes a bs).collision = s.collision := rfl

@[simp] theorem State.storeBytes_dt (s : State) (a : Nat) (bs : List Byte) :
    (s.storeBytes a bs).dt = s.dt := rfl

@[simp] theorem State.storeBytes_st (s : State) (a : Nat) (bs : List Byte) :
    (s.storeBytes a bs).st = s.st := rfl

@[simp] theorem State.storeBytes_status (s : State) (a : Nat) (bs : List Byte) :
    (s.storeBytes a bs).status = s.status := rfl

@[simp] theorem State.storeBytes_env (s : State) (a : Nat) (bs : List Byte) :
    (s.storeBytes a bs).env = s.env := rfl

@[simp] theorem State.storeBytes_drawDone (s : State) (a : Nat) (bs : List Byte) :
    (s.storeBytes a bs).drawDone = s.drawDone := rfl

@[simp] theorem State.storeBytes_reg (s : State) (a : Nat) (bs : List Byte) (r : Reg) :
    (s.storeBytes a bs).reg r = s.reg r := rfl

/-! ## writeReg -/

@[simp] theorem State.writeReg_v (s : State) (r : Reg) (raw : Int) :
    (s.writeReg r raw).v = s.v.set r.toNat (BitVec.ofInt 8 raw) r.isLt := rfl

@[simp] theorem State.writeReg_ovf (s : State) (r : Reg) (raw : Int) :
    (s.writeReg r raw).ovf = decide (raw < 0 ∨ 256 ≤ raw) := rfl

@[simp] theorem State.writeReg_pc (s : State) (r : Reg) (raw : Int) :
    (s.writeReg r raw).pc = s.pc := rfl

@[simp] theorem State.writeReg_i (s : State) (r : Reg) (raw : Int) :
    (s.writeReg r raw).i = s.i := rfl

@[simp] theorem State.writeReg_sp (s : State) (r : Reg) (raw : Int) :
    (s.writeReg r raw).sp = s.sp := rfl

@[simp] theorem State.writeReg_stack (s : State) (r : Reg) (raw : Int) :
    (s.writeReg r raw).stack = s.stack := rfl

@[simp] theorem State.writeReg_mem (s : State) (r : Reg) (raw : Int) :
    (s.writeReg r raw).mem = s.mem := rfl

@[simp] theorem State.writeReg_fb (s : State) (r : Reg) (raw : Int) :
    (s.writeReg r raw).fb = s.fb := rfl

@[simp] theorem State.writeReg_collision (s : State) (r : Reg) (raw : Int) :
    (s.writeReg r raw).collision = s.collision := rfl

@[simp] theorem State.writeReg_dt (s : State) (r : Reg) (raw : Int) :
    (s.writeReg r raw).dt = s.dt := rfl

@[simp] theorem State.writeReg_st (s : State) (r : Reg) (raw : Int) :
    (s.writeReg r raw).st = s.st := rfl

@[simp] theorem State.writeReg_status (s : State) (r : Reg) (raw : Int) :
    (s.writeReg r raw).status = s.status := rfl

@[simp] theorem State.writeReg_env (s : State) (r : Reg) (raw : Int) :
    (s.writeReg r raw).env = s.env := rfl

@[simp] theorem State.writeReg_drawDone (s : State) (r : Reg) (raw : Int) :
    (s.writeReg r raw).drawDone = s.drawDone := rfl

/-! ## setPc -/

@[simp] theorem State.setPc_v (s : State) (t : Word) :
    (s.setPc t).v = s.v := rfl

@[simp] theorem State.setPc_ovf (s : State) (t : Word) :
    (s.setPc t).ovf = s.ovf := rfl

@[simp] theorem State.setPc_pc (s : State) (t : Word) :
    (s.setPc t).pc = t := rfl

@[simp] theorem State.setPc_i (s : State) (t : Word) :
    (s.setPc t).i = s.i := rfl

@[simp] theorem State.setPc_sp (s : State) (t : Word) :
    (s.setPc t).sp = s.sp := rfl

@[simp] theorem State.setPc_stack (s : State) (t : Word) :
    (s.setPc t).stack = s.stack := rfl

@[simp] theorem State.setPc_mem (s : State) (t : Word) :
    (s.setPc t).mem = s.mem := rfl

@[simp] theorem State.setPc_fb (s : State) (t : Word) :
    (s.setPc t).fb = s.fb := rfl

@[simp] theorem State.setPc_collision (s : State) (t : Word) :
    (s.setPc t).collision = s.collision := rfl

@[simp] theorem State.setPc_dt (s : State) (t : Word) :
    (s.setPc t).dt = s.dt := rfl

@[simp] theorem State.setPc_st (s : State) (t : Word) :
    (s.setPc t).st = s.st := rfl

@[simp] theorem State.setPc_status (s : State) (t : Word) :
    (s.setPc t).status = s.status := rfl

@[simp] theorem State.setPc_env (s : State) (t : Word) :
    (s.setPc t).env = s.env := rfl

@[simp] theorem State.setPc_drawDone (s : State) (t : Word) :
    (s.setPc t).drawDone = s.drawDone := rfl

@[simp] theorem State.setPc_reg (s : State) (t : Word) (r : Reg) :
    (s.setPc t).reg r = s.reg r := rfl

/-! ## setIndex -/

@[simp] theorem State.setIndex_v (s : State) (w : Word) :
    (s.setIndex w).v = s.v := rfl

@[simp] theorem State.setIndex_ovf (s : State) (w : Word) :
    (s.setIndex w).ovf = s.ovf := rfl

@[simp] theorem State.setIndex_pc (s : State) (w : Word) :
    (s.setIndex w).pc = s.pc := rfl

@[simp] theorem State.setIndex_i (s : State) (w : Word) :
    (s.setIndex w).i = w := rfl

@[simp] theorem State.setIndex_sp (s : State) (w : Word) :
    (s.setIndex w).sp = s.sp := rfl

@[simp] theorem State.setIndex_stack (s : State) (w : Word) :
    (s.setIndex w).stack = s.stack := rfl

@[simp] theorem State.setIndex_mem (s : State) (w : Word) :
    (s.setIndex w).mem = s.mem := rfl

@[simp] theorem State.setIndex_fb (s : State) (w : Word) :
    (s.setIndex w).fb = s.fb := rfl

@[simp] theorem State.setIndex_collision (s : State) (w : Word) :
    (s.setIndex w).collision = s.collision := rfl

@[simp] theorem State.setIndex_dt (s : State) (w : Word) :
    (s.setIndex w).dt = s.dt := rfl

@[simp] theorem State.setIndex_st (s : State) (w : Word) :
    (s.setIndex w).st = s.st := rfl

@[simp] theorem State.setIndex_status (s : State) (w : Word) :
    (s.setIndex w).status = s.status := rfl

@[simp] theorem State.setIndex_env (s : State) (w : Word) :
    (s.setIndex w).env = s.env := rfl

@[simp] theorem State.setIndex_drawDone (s : State) (w : Word) :
    (s.setIndex w).drawDone = s.drawDone := rfl

@[simp] theorem State.setIndex_reg (s : State) (w : Word) (r : Reg) :
    (s.setIndex w).reg r = s.reg r := rfl

/-! ## drop -/

@[simp] theorem State.drop_v (s : State) :
    (s.drop).v = s.v := rfl

@[simp] theorem State.drop_ovf (s : State) :
    (s.drop).ovf = s.ovf := rfl

@[simp] theorem State.drop_pc (s : State) :
    (s.drop).pc = s.pc := rfl

@[simp] theorem State.drop_i (s : State) :
    (s.drop).i = s.i := rfl

@[simp] theorem State.drop_sp (s : State) :
    (s.drop).sp = ⟨s.sp.val - 1, Nat.lt_of_le_of_lt (Nat.sub_le _ _) s.sp.isLt⟩ := rfl

@[simp] theorem State.drop_stack (s : State) :
    (s.drop).stack = s.stack := rfl

@[simp] theorem State.drop_mem (s : State) :
    (s.drop).mem = s.mem := rfl

@[simp] theorem State.drop_fb (s : State) :
    (s.drop).fb = s.fb := rfl

@[simp] theorem State.drop_collision (s : State) :
    (s.drop).collision = s.collision := rfl

@[simp] theorem State.drop_dt (s : State) :
    (s.drop).dt = s.dt := rfl

@[simp] theorem State.drop_st (s : State) :
    (s.drop).st = s.st := rfl

@[simp] theorem State.drop_status (s : State) :
    (s.drop).status = s.status := rfl

@[simp] theorem State.drop_env (s : State) :
    (s.drop).env = s.env := rfl

@[simp] theorem State.drop_drawDone (s : State) :
    (s.drop).drawDone = s.drawDone := rfl

@[simp] theorem State.drop_reg (s : State) (r : Reg) :
    (s.drop).reg r = s.reg r := rfl

/-! ## takeError -/

@[simp] theorem State.takeError_v (s : State) (c : Cause) (info : Word) :
    (s.takeError c info).v = s.v := rfl

@[simp] theorem State.takeError_ovf (s : State) (c : Cause) (info : Word) :
    (s.takeError c info).ovf = s.ovf := rfl

@[simp] theorem State.takeError_pc (s : State) (c : Cause) (info : Word) :
    (s.takeError c info).pc = s.pc := rfl

@[simp] theorem State.takeError_i (s : State) (c : Cause) (info : Word) :
    (s.takeError c info).i = s.i := rfl

@[simp] theorem State.takeError_sp (s : State) (c : Cause) (info : Word) :
    (s.takeError c info).sp = s.sp := rfl

@[simp] theorem State.takeError_stack (s : State) (c : Cause) (info : Word) :
    (s.takeError c info).stack = s.stack := rfl

@[simp] theorem State.takeError_mem (s : State) (c : Cause) (info : Word) :
    (s.takeError c info).mem = s.mem := rfl

@[simp] theorem State.takeError_fb (s : State) (c : Cause) (info : Word) :
    (s.takeError c info).fb = s.fb := rfl

@[simp] theorem State.takeError_collision (s : State) (c : Cause) (info : Word) :
    (s.takeError c info).collision = s.collision := rfl

@[simp] theorem State.takeError_dt (s : State) (c : Cause) (info : Word) :
    (s.takeError c info).dt = s.dt := rfl

@[simp] theorem State.takeError_st (s : State) (c : Cause) (info : Word) :
    (s.takeError c info).st = s.st := rfl

@[simp] theorem State.takeError_status (s : State) (c : Cause) (info : Word) :
    (s.takeError c info).status = { halted := s.status.halted || c.fatal, cause := c.code, info := info, seen := s.status.seen ||| seenBit c.code } := rfl

@[simp] theorem State.takeError_env (s : State) (c : Cause) (info : Word) :
    (s.takeError c info).env = s.env := rfl

@[simp] theorem State.takeError_drawDone (s : State) (c : Cause) (info : Word) :
    (s.takeError c info).drawDone = s.drawDone := rfl

@[simp] theorem State.takeError_reg (s : State) (c : Cause) (info : Word) (r : Reg) :
    (s.takeError c info).reg r = s.reg r := rfl

/-! ## advance -/

@[simp] theorem State.advance_v (s : State) :
    (s.advance).v = s.v := rfl

@[simp] theorem State.advance_ovf (s : State) :
    (s.advance).ovf = s.ovf := rfl

@[simp] theorem State.advance_pc (s : State) :
    (s.advance).pc = s.pc + 2 := rfl

@[simp] theorem State.advance_i (s : State) :
    (s.advance).i = s.i := rfl

@[simp] theorem State.advance_sp (s : State) :
    (s.advance).sp = s.sp := rfl

@[simp] theorem State.advance_stack (s : State) :
    (s.advance).stack = s.stack := rfl

@[simp] theorem State.advance_mem (s : State) :
    (s.advance).mem = s.mem := rfl

@[simp] theorem State.advance_fb (s : State) :
    (s.advance).fb = s.fb := rfl

@[simp] theorem State.advance_collision (s : State) :
    (s.advance).collision = s.collision := rfl

@[simp] theorem State.advance_dt (s : State) :
    (s.advance).dt = s.dt := rfl

@[simp] theorem State.advance_st (s : State) :
    (s.advance).st = s.st := rfl

@[simp] theorem State.advance_status (s : State) :
    (s.advance).status = { s.status with cause := 0, info := 0 } := rfl

@[simp] theorem State.advance_env (s : State) :
    (s.advance).env = s.env + 1 := rfl

@[simp] theorem State.advance_drawDone (s : State) :
    (s.advance).drawDone = s.drawDone := rfl

@[simp] theorem State.advance_reg (s : State) (r : Reg) :
    (s.advance).reg r = s.reg r := rfl

/-! ## tickDelay -/

@[simp] theorem State.tickDelay_v (s : State) :
    (s.tickDelay).v = s.v := rfl

@[simp] theorem State.tickDelay_ovf (s : State) :
    (s.tickDelay).ovf = s.ovf := rfl

@[simp] theorem State.tickDelay_pc (s : State) :
    (s.tickDelay).pc = s.pc := rfl

@[simp] theorem State.tickDelay_i (s : State) :
    (s.tickDelay).i = s.i := rfl

@[simp] theorem State.tickDelay_sp (s : State) :
    (s.tickDelay).sp = s.sp := rfl

@[simp] theorem State.tickDelay_stack (s : State) :
    (s.tickDelay).stack = s.stack := rfl

@[simp] theorem State.tickDelay_mem (s : State) :
    (s.tickDelay).mem = s.mem := rfl

@[simp] theorem State.tickDelay_fb (s : State) :
    (s.tickDelay).fb = s.fb := rfl

@[simp] theorem State.tickDelay_collision (s : State) :
    (s.tickDelay).collision = s.collision := rfl

@[simp] theorem State.tickDelay_dt (s : State) :
    (s.tickDelay).dt = tickValue s.dt := rfl

@[simp] theorem State.tickDelay_st (s : State) :
    (s.tickDelay).st = s.st := rfl

@[simp] theorem State.tickDelay_status (s : State) :
    (s.tickDelay).status = s.status := rfl

@[simp] theorem State.tickDelay_env (s : State) :
    (s.tickDelay).env = s.env := rfl

@[simp] theorem State.tickDelay_drawDone (s : State) :
    (s.tickDelay).drawDone = s.drawDone := rfl

@[simp] theorem State.tickDelay_reg (s : State) (r : Reg) :
    (s.tickDelay).reg r = s.reg r := rfl

/-! ## tickSound -/

@[simp] theorem State.tickSound_v (s : State) :
    (s.tickSound).v = s.v := rfl

@[simp] theorem State.tickSound_ovf (s : State) :
    (s.tickSound).ovf = s.ovf := rfl

@[simp] theorem State.tickSound_pc (s : State) :
    (s.tickSound).pc = s.pc := rfl

@[simp] theorem State.tickSound_i (s : State) :
    (s.tickSound).i = s.i := rfl

@[simp] theorem State.tickSound_sp (s : State) :
    (s.tickSound).sp = s.sp := rfl

@[simp] theorem State.tickSound_stack (s : State) :
    (s.tickSound).stack = s.stack := rfl

@[simp] theorem State.tickSound_mem (s : State) :
    (s.tickSound).mem = s.mem := rfl

@[simp] theorem State.tickSound_fb (s : State) :
    (s.tickSound).fb = s.fb := rfl

@[simp] theorem State.tickSound_collision (s : State) :
    (s.tickSound).collision = s.collision := rfl

@[simp] theorem State.tickSound_dt (s : State) :
    (s.tickSound).dt = s.dt := rfl

@[simp] theorem State.tickSound_st (s : State) :
    (s.tickSound).st = tickValue s.st := rfl

@[simp] theorem State.tickSound_status (s : State) :
    (s.tickSound).status = s.status := rfl

@[simp] theorem State.tickSound_env (s : State) :
    (s.tickSound).env = s.env := rfl

@[simp] theorem State.tickSound_drawDone (s : State) :
    (s.tickSound).drawDone = s.drawDone := rfl

@[simp] theorem State.tickSound_reg (s : State) (r : Reg) :
    (s.tickSound).reg r = s.reg r := rfl

/-! ## setDelayTimer -/

@[simp] theorem State.setDelayTimer_v (s : State) (b : Byte) :
    (s.setDelayTimer b).v = s.v := rfl

@[simp] theorem State.setDelayTimer_ovf (s : State) (b : Byte) :
    (s.setDelayTimer b).ovf = s.ovf := rfl

@[simp] theorem State.setDelayTimer_pc (s : State) (b : Byte) :
    (s.setDelayTimer b).pc = s.pc := rfl

@[simp] theorem State.setDelayTimer_i (s : State) (b : Byte) :
    (s.setDelayTimer b).i = s.i := rfl

@[simp] theorem State.setDelayTimer_sp (s : State) (b : Byte) :
    (s.setDelayTimer b).sp = s.sp := rfl

@[simp] theorem State.setDelayTimer_stack (s : State) (b : Byte) :
    (s.setDelayTimer b).stack = s.stack := rfl

@[simp] theorem State.setDelayTimer_mem (s : State) (b : Byte) :
    (s.setDelayTimer b).mem = s.mem := rfl

@[simp] theorem State.setDelayTimer_fb (s : State) (b : Byte) :
    (s.setDelayTimer b).fb = s.fb := rfl

@[simp] theorem State.setDelayTimer_collision (s : State) (b : Byte) :
    (s.setDelayTimer b).collision = s.collision := rfl

@[simp] theorem State.setDelayTimer_dt (s : State) (b : Byte) :
    (s.setDelayTimer b).dt = b := rfl

@[simp] theorem State.setDelayTimer_st (s : State) (b : Byte) :
    (s.setDelayTimer b).st = s.st := rfl

@[simp] theorem State.setDelayTimer_status (s : State) (b : Byte) :
    (s.setDelayTimer b).status = s.status := rfl

@[simp] theorem State.setDelayTimer_env (s : State) (b : Byte) :
    (s.setDelayTimer b).env = s.env := rfl

@[simp] theorem State.setDelayTimer_drawDone (s : State) (b : Byte) :
    (s.setDelayTimer b).drawDone = s.drawDone := rfl

@[simp] theorem State.setDelayTimer_reg (s : State) (b : Byte) (r : Reg) :
    (s.setDelayTimer b).reg r = s.reg r := rfl

/-! ## setSoundTimer -/

@[simp] theorem State.setSoundTimer_v (s : State) (b : Byte) :
    (s.setSoundTimer b).v = s.v := rfl

@[simp] theorem State.setSoundTimer_ovf (s : State) (b : Byte) :
    (s.setSoundTimer b).ovf = s.ovf := rfl

@[simp] theorem State.setSoundTimer_pc (s : State) (b : Byte) :
    (s.setSoundTimer b).pc = s.pc := rfl

@[simp] theorem State.setSoundTimer_i (s : State) (b : Byte) :
    (s.setSoundTimer b).i = s.i := rfl

@[simp] theorem State.setSoundTimer_sp (s : State) (b : Byte) :
    (s.setSoundTimer b).sp = s.sp := rfl

@[simp] theorem State.setSoundTimer_stack (s : State) (b : Byte) :
    (s.setSoundTimer b).stack = s.stack := rfl

@[simp] theorem State.setSoundTimer_mem (s : State) (b : Byte) :
    (s.setSoundTimer b).mem = s.mem := rfl

@[simp] theorem State.setSoundTimer_fb (s : State) (b : Byte) :
    (s.setSoundTimer b).fb = s.fb := rfl

@[simp] theorem State.setSoundTimer_collision (s : State) (b : Byte) :
    (s.setSoundTimer b).collision = s.collision := rfl

@[simp] theorem State.setSoundTimer_dt (s : State) (b : Byte) :
    (s.setSoundTimer b).dt = s.dt := rfl

@[simp] theorem State.setSoundTimer_st (s : State) (b : Byte) :
    (s.setSoundTimer b).st = b := rfl

@[simp] theorem State.setSoundTimer_status (s : State) (b : Byte) :
    (s.setSoundTimer b).status = s.status := rfl

@[simp] theorem State.setSoundTimer_env (s : State) (b : Byte) :
    (s.setSoundTimer b).env = s.env := rfl

@[simp] theorem State.setSoundTimer_drawDone (s : State) (b : Byte) :
    (s.setSoundTimer b).drawDone = s.drawDone := rfl

@[simp] theorem State.setSoundTimer_reg (s : State) (b : Byte) (r : Reg) :
    (s.setSoundTimer b).reg r = s.reg r := rfl

/-! ## passTime -/

@[simp] theorem State.passTime_v (s : State) :
    (s.passTime).v = s.v := rfl

@[simp] theorem State.passTime_ovf (s : State) :
    (s.passTime).ovf = s.ovf := rfl

@[simp] theorem State.passTime_pc (s : State) :
    (s.passTime).pc = s.pc := rfl

@[simp] theorem State.passTime_i (s : State) :
    (s.passTime).i = s.i := rfl

@[simp] theorem State.passTime_sp (s : State) :
    (s.passTime).sp = s.sp := rfl

@[simp] theorem State.passTime_stack (s : State) :
    (s.passTime).stack = s.stack := rfl

@[simp] theorem State.passTime_mem (s : State) :
    (s.passTime).mem = s.mem := rfl

@[simp] theorem State.passTime_fb (s : State) :
    (s.passTime).fb = s.fb := rfl

@[simp] theorem State.passTime_collision (s : State) :
    (s.passTime).collision = s.collision := rfl

@[simp] theorem State.passTime_dt (s : State) :
    (s.passTime).dt = tickMany (Config.delayTicks s.env) s.dt := rfl

@[simp] theorem State.passTime_st (s : State) :
    (s.passTime).st = tickMany (Config.soundTicks s.env) s.st := rfl

@[simp] theorem State.passTime_status (s : State) :
    (s.passTime).status = s.status := rfl

@[simp] theorem State.passTime_env (s : State) :
    (s.passTime).env = s.env := rfl

@[simp] theorem State.passTime_drawDone (s : State) :
    (s.passTime).drawDone = s.drawDone := rfl

@[simp] theorem State.passTime_reg (s : State) (r : Reg) :
    (s.passTime).reg r = s.reg r := rfl

/-! ## clearFb -/

@[simp] theorem State.clearFb_v (s : State) :
    (s.clearFb).v = s.v := rfl

@[simp] theorem State.clearFb_ovf (s : State) :
    (s.clearFb).ovf = s.ovf := rfl

@[simp] theorem State.clearFb_pc (s : State) :
    (s.clearFb).pc = s.pc := rfl

@[simp] theorem State.clearFb_i (s : State) :
    (s.clearFb).i = s.i := rfl

@[simp] theorem State.clearFb_sp (s : State) :
    (s.clearFb).sp = s.sp := rfl

@[simp] theorem State.clearFb_stack (s : State) :
    (s.clearFb).stack = s.stack := rfl

@[simp] theorem State.clearFb_mem (s : State) :
    (s.clearFb).mem = s.mem := rfl

@[simp] theorem State.clearFb_fb (s : State) :
    (s.clearFb).fb = Framebuffer.cleared := rfl

@[simp] theorem State.clearFb_collision (s : State) :
    (s.clearFb).collision = s.collision := rfl

@[simp] theorem State.clearFb_dt (s : State) :
    (s.clearFb).dt = s.dt := rfl

@[simp] theorem State.clearFb_st (s : State) :
    (s.clearFb).st = s.st := rfl

@[simp] theorem State.clearFb_status (s : State) :
    (s.clearFb).status = s.status := rfl

@[simp] theorem State.clearFb_env (s : State) :
    (s.clearFb).env = s.env := rfl

@[simp] theorem State.clearFb_drawDone (s : State) :
    (s.clearFb).drawDone = s.drawDone := rfl

@[simp] theorem State.clearFb_reg (s : State) (r : Reg) :
    (s.clearFb).reg r = s.reg r := rfl

/-! ## drawFb -/

@[simp] theorem State.drawFb_v (s : State) (x y : Nat) (sprite : List Byte) :
    (s.drawFb x y sprite).v = s.v := rfl

@[simp] theorem State.drawFb_ovf (s : State) (x y : Nat) (sprite : List Byte) :
    (s.drawFb x y sprite).ovf = s.ovf := rfl

@[simp] theorem State.drawFb_pc (s : State) (x y : Nat) (sprite : List Byte) :
    (s.drawFb x y sprite).pc = s.pc := rfl

@[simp] theorem State.drawFb_i (s : State) (x y : Nat) (sprite : List Byte) :
    (s.drawFb x y sprite).i = s.i := rfl

@[simp] theorem State.drawFb_sp (s : State) (x y : Nat) (sprite : List Byte) :
    (s.drawFb x y sprite).sp = s.sp := rfl

@[simp] theorem State.drawFb_stack (s : State) (x y : Nat) (sprite : List Byte) :
    (s.drawFb x y sprite).stack = s.stack := rfl

@[simp] theorem State.drawFb_mem (s : State) (x y : Nat) (sprite : List Byte) :
    (s.drawFb x y sprite).mem = s.mem := rfl

@[simp] theorem State.drawFb_fb (s : State) (x y : Nat) (sprite : List Byte) :
    (s.drawFb x y sprite).fb = (Framebuffer.draw s.fb x y sprite).1 := rfl

@[simp] theorem State.drawFb_collision (s : State) (x y : Nat) (sprite : List Byte) :
    (s.drawFb x y sprite).collision = (Framebuffer.draw s.fb x y sprite).2 := rfl

@[simp] theorem State.drawFb_dt (s : State) (x y : Nat) (sprite : List Byte) :
    (s.drawFb x y sprite).dt = s.dt := rfl

@[simp] theorem State.drawFb_st (s : State) (x y : Nat) (sprite : List Byte) :
    (s.drawFb x y sprite).st = s.st := rfl

@[simp] theorem State.drawFb_status (s : State) (x y : Nat) (sprite : List Byte) :
    (s.drawFb x y sprite).status = s.status := rfl

@[simp] theorem State.drawFb_env (s : State) (x y : Nat) (sprite : List Byte) :
    (s.drawFb x y sprite).env = s.env := rfl

@[simp] theorem State.drawFb_drawDone (s : State) (x y : Nat) (sprite : List Byte) :
    (s.drawFb x y sprite).drawDone = s.drawDone := rfl

@[simp] theorem State.drawFb_reg (s : State) (x y : Nat) (sprite : List Byte) (r : Reg) :
    (s.drawFb x y sprite).reg r = s.reg r := rfl

/-! ## emitDrawDone -/

@[simp] theorem State.emitDrawDone_v (s : State) :
    (s.emitDrawDone).v = s.v := rfl

@[simp] theorem State.emitDrawDone_ovf (s : State) :
    (s.emitDrawDone).ovf = s.ovf := rfl

@[simp] theorem State.emitDrawDone_pc (s : State) :
    (s.emitDrawDone).pc = s.pc := rfl

@[simp] theorem State.emitDrawDone_i (s : State) :
    (s.emitDrawDone).i = s.i := rfl

@[simp] theorem State.emitDrawDone_sp (s : State) :
    (s.emitDrawDone).sp = s.sp := rfl

@[simp] theorem State.emitDrawDone_stack (s : State) :
    (s.emitDrawDone).stack = s.stack := rfl

@[simp] theorem State.emitDrawDone_mem (s : State) :
    (s.emitDrawDone).mem = s.mem := rfl

@[simp] theorem State.emitDrawDone_fb (s : State) :
    (s.emitDrawDone).fb = s.fb := rfl

@[simp] theorem State.emitDrawDone_collision (s : State) :
    (s.emitDrawDone).collision = s.collision := rfl

@[simp] theorem State.emitDrawDone_dt (s : State) :
    (s.emitDrawDone).dt = s.dt := rfl

@[simp] theorem State.emitDrawDone_st (s : State) :
    (s.emitDrawDone).st = s.st := rfl

@[simp] theorem State.emitDrawDone_status (s : State) :
    (s.emitDrawDone).status = s.status := rfl

@[simp] theorem State.emitDrawDone_env (s : State) :
    (s.emitDrawDone).env = s.env := rfl

@[simp] theorem State.emitDrawDone_drawDone (s : State) :
    (s.emitDrawDone).drawDone = s.drawDone + 1 := rfl

@[simp] theorem State.emitDrawDone_reg (s : State) (r : Reg) :
    (s.emitDrawDone).reg r = s.reg r := rfl

/-! ## writeThenFlag -/

@[simp] theorem State.writeThenFlag_pc (s : State) (x : Reg) (raw : Int) (flag : Bool) :
    (s.writeThenFlag x raw flag).pc = s.pc := rfl

@[simp] theorem State.writeThenFlag_i (s : State) (x : Reg) (raw : Int) (flag : Bool) :
    (s.writeThenFlag x raw flag).i = s.i := rfl

@[simp] theorem State.writeThenFlag_sp (s : State) (x : Reg) (raw : Int) (flag : Bool) :
    (s.writeThenFlag x raw flag).sp = s.sp := rfl

@[simp] theorem State.writeThenFlag_stack (s : State) (x : Reg) (raw : Int) (flag : Bool) :
    (s.writeThenFlag x raw flag).stack = s.stack := rfl

@[simp] theorem State.writeThenFlag_mem (s : State) (x : Reg) (raw : Int) (flag : Bool) :
    (s.writeThenFlag x raw flag).mem = s.mem := rfl

@[simp] theorem State.writeThenFlag_fb (s : State) (x : Reg) (raw : Int) (flag : Bool) :
    (s.writeThenFlag x raw flag).fb = s.fb := rfl

@[simp] theorem State.writeThenFlag_collision (s : State) (x : Reg) (raw : Int) (flag : Bool) :
    (s.writeThenFlag x raw flag).collision = s.collision := rfl

@[simp] theorem State.writeThenFlag_dt (s : State) (x : Reg) (raw : Int) (flag : Bool) :
    (s.writeThenFlag x raw flag).dt = s.dt := rfl

@[simp] theorem State.writeThenFlag_st (s : State) (x : Reg) (raw : Int) (flag : Bool) :
    (s.writeThenFlag x raw flag).st = s.st := rfl

@[simp] theorem State.writeThenFlag_status (s : State) (x : Reg) (raw : Int) (flag : Bool) :
    (s.writeThenFlag x raw flag).status = s.status := rfl

@[simp] theorem State.writeThenFlag_env (s : State) (x : Reg) (raw : Int) (flag : Bool) :
    (s.writeThenFlag x raw flag).env = s.env := rfl

@[simp] theorem State.writeThenFlag_drawDone (s : State) (x : Reg) (raw : Int) (flag : Bool) :
    (s.writeThenFlag x raw flag).drawDone = s.drawDone := rfl

/-! ## writeCarry -/

@[simp] theorem State.writeCarry_pc (s : State) (x : Reg) (raw : Int) :
    (s.writeCarry x raw).pc = s.pc := rfl

@[simp] theorem State.writeCarry_i (s : State) (x : Reg) (raw : Int) :
    (s.writeCarry x raw).i = s.i := rfl

@[simp] theorem State.writeCarry_sp (s : State) (x : Reg) (raw : Int) :
    (s.writeCarry x raw).sp = s.sp := rfl

@[simp] theorem State.writeCarry_stack (s : State) (x : Reg) (raw : Int) :
    (s.writeCarry x raw).stack = s.stack := rfl

@[simp] theorem State.writeCarry_mem (s : State) (x : Reg) (raw : Int) :
    (s.writeCarry x raw).mem = s.mem := rfl

@[simp] theorem State.writeCarry_fb (s : State) (x : Reg) (raw : Int) :
    (s.writeCarry x raw).fb = s.fb := rfl

@[simp] theorem State.writeCarry_collision (s : State) (x : Reg) (raw : Int) :
    (s.writeCarry x raw).collision = s.collision := rfl

@[simp] theorem State.writeCarry_dt (s : State) (x : Reg) (raw : Int) :
    (s.writeCarry x raw).dt = s.dt := rfl

@[simp] theorem State.writeCarry_st (s : State) (x : Reg) (raw : Int) :
    (s.writeCarry x raw).st = s.st := rfl

@[simp] theorem State.writeCarry_status (s : State) (x : Reg) (raw : Int) :
    (s.writeCarry x raw).status = s.status := rfl

@[simp] theorem State.writeCarry_env (s : State) (x : Reg) (raw : Int) :
    (s.writeCarry x raw).env = s.env := rfl

@[simp] theorem State.writeCarry_drawDone (s : State) (x : Reg) (raw : Int) :
    (s.writeCarry x raw).drawDone = s.drawDone := rfl

/-! ## writeNoBorrow -/

@[simp] theorem State.writeNoBorrow_pc (s : State) (x : Reg) (raw : Int) :
    (s.writeNoBorrow x raw).pc = s.pc := rfl

@[simp] theorem State.writeNoBorrow_i (s : State) (x : Reg) (raw : Int) :
    (s.writeNoBorrow x raw).i = s.i := rfl

@[simp] theorem State.writeNoBorrow_sp (s : State) (x : Reg) (raw : Int) :
    (s.writeNoBorrow x raw).sp = s.sp := rfl

@[simp] theorem State.writeNoBorrow_stack (s : State) (x : Reg) (raw : Int) :
    (s.writeNoBorrow x raw).stack = s.stack := rfl

@[simp] theorem State.writeNoBorrow_mem (s : State) (x : Reg) (raw : Int) :
    (s.writeNoBorrow x raw).mem = s.mem := rfl

@[simp] theorem State.writeNoBorrow_fb (s : State) (x : Reg) (raw : Int) :
    (s.writeNoBorrow x raw).fb = s.fb := rfl

@[simp] theorem State.writeNoBorrow_collision (s : State) (x : Reg) (raw : Int) :
    (s.writeNoBorrow x raw).collision = s.collision := rfl

@[simp] theorem State.writeNoBorrow_dt (s : State) (x : Reg) (raw : Int) :
    (s.writeNoBorrow x raw).dt = s.dt := rfl

@[simp] theorem State.writeNoBorrow_st (s : State) (x : Reg) (raw : Int) :
    (s.writeNoBorrow x raw).st = s.st := rfl

@[simp] theorem State.writeNoBorrow_status (s : State) (x : Reg) (raw : Int) :
    (s.writeNoBorrow x raw).status = s.status := rfl

@[simp] theorem State.writeNoBorrow_env (s : State) (x : Reg) (raw : Int) :
    (s.writeNoBorrow x raw).env = s.env := rfl

@[simp] theorem State.writeNoBorrow_drawDone (s : State) (x : Reg) (raw : Int) :
    (s.writeNoBorrow x raw).drawDone = s.drawDone := rfl

/-! ## writeCollision -/

@[simp] theorem State.writeCollision_pc (s : State) :
    (s.writeCollision).pc = s.pc := rfl

@[simp] theorem State.writeCollision_i (s : State) :
    (s.writeCollision).i = s.i := rfl

@[simp] theorem State.writeCollision_sp (s : State) :
    (s.writeCollision).sp = s.sp := rfl

@[simp] theorem State.writeCollision_stack (s : State) :
    (s.writeCollision).stack = s.stack := rfl

@[simp] theorem State.writeCollision_mem (s : State) :
    (s.writeCollision).mem = s.mem := rfl

@[simp] theorem State.writeCollision_fb (s : State) :
    (s.writeCollision).fb = s.fb := rfl

@[simp] theorem State.writeCollision_collision (s : State) :
    (s.writeCollision).collision = s.collision := rfl

@[simp] theorem State.writeCollision_dt (s : State) :
    (s.writeCollision).dt = s.dt := rfl

@[simp] theorem State.writeCollision_st (s : State) :
    (s.writeCollision).st = s.st := rfl

@[simp] theorem State.writeCollision_status (s : State) :
    (s.writeCollision).status = s.status := rfl

@[simp] theorem State.writeCollision_env (s : State) :
    (s.writeCollision).env = s.env := rfl

@[simp] theorem State.writeCollision_drawDone (s : State) :
    (s.writeCollision).drawDone = s.drawDone := rfl

/-! ## push -/

@[simp] theorem State.push_v (s : State) (w : Word) :
    (s.push w).v = s.v := by unfold State.push; split <;> rfl

@[simp] theorem State.push_ovf (s : State) (w : Word) :
    (s.push w).ovf = s.ovf := by unfold State.push; split <;> rfl

@[simp] theorem State.push_pc (s : State) (w : Word) :
    (s.push w).pc = s.pc := by unfold State.push; split <;> rfl

@[simp] theorem State.push_i (s : State) (w : Word) :
    (s.push w).i = s.i := by unfold State.push; split <;> rfl

@[simp] theorem State.push_mem (s : State) (w : Word) :
    (s.push w).mem = s.mem := by unfold State.push; split <;> rfl

@[simp] theorem State.push_fb (s : State) (w : Word) :
    (s.push w).fb = s.fb := by unfold State.push; split <;> rfl

@[simp] theorem State.push_collision (s : State) (w : Word) :
    (s.push w).collision = s.collision := by unfold State.push; split <;> rfl

@[simp] theorem State.push_dt (s : State) (w : Word) :
    (s.push w).dt = s.dt := by unfold State.push; split <;> rfl

@[simp] theorem State.push_st (s : State) (w : Word) :
    (s.push w).st = s.st := by unfold State.push; split <;> rfl

@[simp] theorem State.push_status (s : State) (w : Word) :
    (s.push w).status = s.status := by unfold State.push; split <;> rfl

@[simp] theorem State.push_env (s : State) (w : Word) :
    (s.push w).env = s.env := by unfold State.push; split <;> rfl

@[simp] theorem State.push_drawDone (s : State) (w : Word) :
    (s.push w).drawDone = s.drawDone := by unfold State.push; split <;> rfl

@[simp] theorem State.push_reg (s : State) (w : Word) (r : Reg) :
    (s.push w).reg r = s.reg r := by unfold State.push; split <;> rfl

/-! ## skipIf -/

@[simp] theorem State.skipIf_v (s : State) (c : Bool) :
    (s.skipIf c).v = s.v := rfl

@[simp] theorem State.skipIf_ovf (s : State) (c : Bool) :
    (s.skipIf c).ovf = s.ovf := rfl

@[simp] theorem State.skipIf_pc (s : State) (c : Bool) :
    (s.skipIf c).pc = if c then s.pc + 2 else s.pc := rfl

@[simp] theorem State.skipIf_i (s : State) (c : Bool) :
    (s.skipIf c).i = s.i := rfl

@[simp] theorem State.skipIf_sp (s : State) (c : Bool) :
    (s.skipIf c).sp = s.sp := rfl

@[simp] theorem State.skipIf_stack (s : State) (c : Bool) :
    (s.skipIf c).stack = s.stack := rfl

@[simp] theorem State.skipIf_mem (s : State) (c : Bool) :
    (s.skipIf c).mem = s.mem := rfl

@[simp] theorem State.skipIf_fb (s : State) (c : Bool) :
    (s.skipIf c).fb = s.fb := rfl

@[simp] theorem State.skipIf_collision (s : State) (c : Bool) :
    (s.skipIf c).collision = s.collision := rfl

@[simp] theorem State.skipIf_dt (s : State) (c : Bool) :
    (s.skipIf c).dt = s.dt := rfl

@[simp] theorem State.skipIf_st (s : State) (c : Bool) :
    (s.skipIf c).st = s.st := rfl

@[simp] theorem State.skipIf_status (s : State) (c : Bool) :
    (s.skipIf c).status = s.status := rfl

@[simp] theorem State.skipIf_env (s : State) (c : Bool) :
    (s.skipIf c).env = s.env := rfl

@[simp] theorem State.skipIf_drawDone (s : State) (c : Bool) :
    (s.skipIf c).drawDone = s.drawDone := rfl

@[simp] theorem State.skipIf_reg (s : State) (c : Bool) (r : Reg) :
    (s.skipIf c).reg r = s.reg r := rfl

/-! ## acceptKey -/

@[simp] theorem State.acceptKey_i (s : State) (x : Reg) (k : Option Nibble) :
    (s.acceptKey x k).i = s.i := by cases k <;> rfl

@[simp] theorem State.acceptKey_sp (s : State) (x : Reg) (k : Option Nibble) :
    (s.acceptKey x k).sp = s.sp := by cases k <;> rfl

@[simp] theorem State.acceptKey_stack (s : State) (x : Reg) (k : Option Nibble) :
    (s.acceptKey x k).stack = s.stack := by cases k <;> rfl

@[simp] theorem State.acceptKey_mem (s : State) (x : Reg) (k : Option Nibble) :
    (s.acceptKey x k).mem = s.mem := by cases k <;> rfl

@[simp] theorem State.acceptKey_fb (s : State) (x : Reg) (k : Option Nibble) :
    (s.acceptKey x k).fb = s.fb := by cases k <;> rfl

@[simp] theorem State.acceptKey_collision (s : State) (x : Reg) (k : Option Nibble) :
    (s.acceptKey x k).collision = s.collision := by cases k <;> rfl

@[simp] theorem State.acceptKey_dt (s : State) (x : Reg) (k : Option Nibble) :
    (s.acceptKey x k).dt = s.dt := by cases k <;> rfl

@[simp] theorem State.acceptKey_st (s : State) (x : Reg) (k : Option Nibble) :
    (s.acceptKey x k).st = s.st := by cases k <;> rfl

@[simp] theorem State.acceptKey_status (s : State) (x : Reg) (k : Option Nibble) :
    (s.acceptKey x k).status = s.status := by cases k <;> rfl

@[simp] theorem State.acceptKey_env (s : State) (x : Reg) (k : Option Nibble) :
    (s.acceptKey x k).env = s.env := by cases k <;> rfl

@[simp] theorem State.acceptKey_drawDone (s : State) (x : Reg) (k : Option Nibble) :
    (s.acceptKey x k).drawDone = s.drawDone := by cases k <;> rfl

/-! ## loadRegsFrom -/

@[simp] theorem State.loadRegsFrom_pc (s : State) (a n : Nat) :
    (s.loadRegsFrom a n).pc = s.pc := by
  induction n with
  | zero => rfl
  | succ k ih => simpa [State.loadRegsFrom] using ih

@[simp] theorem State.loadRegsFrom_i (s : State) (a n : Nat) :
    (s.loadRegsFrom a n).i = s.i := by
  induction n with
  | zero => rfl
  | succ k ih => simpa [State.loadRegsFrom] using ih

@[simp] theorem State.loadRegsFrom_sp (s : State) (a n : Nat) :
    (s.loadRegsFrom a n).sp = s.sp := by
  induction n with
  | zero => rfl
  | succ k ih => simpa [State.loadRegsFrom] using ih

@[simp] theorem State.loadRegsFrom_stack (s : State) (a n : Nat) :
    (s.loadRegsFrom a n).stack = s.stack := by
  induction n with
  | zero => rfl
  | succ k ih => simpa [State.loadRegsFrom] using ih

@[simp] theorem State.loadRegsFrom_mem (s : State) (a n : Nat) :
    (s.loadRegsFrom a n).mem = s.mem := by
  induction n with
  | zero => rfl
  | succ k ih => simpa [State.loadRegsFrom] using ih

@[simp] theorem State.loadRegsFrom_fb (s : State) (a n : Nat) :
    (s.loadRegsFrom a n).fb = s.fb := by
  induction n with
  | zero => rfl
  | succ k ih => simpa [State.loadRegsFrom] using ih

@[simp] theorem State.loadRegsFrom_collision (s : State) (a n : Nat) :
    (s.loadRegsFrom a n).collision = s.collision := by
  induction n with
  | zero => rfl
  | succ k ih => simpa [State.loadRegsFrom] using ih

@[simp] theorem State.loadRegsFrom_dt (s : State) (a n : Nat) :
    (s.loadRegsFrom a n).dt = s.dt := by
  induction n with
  | zero => rfl
  | succ k ih => simpa [State.loadRegsFrom] using ih

@[simp] theorem State.loadRegsFrom_st (s : State) (a n : Nat) :
    (s.loadRegsFrom a n).st = s.st := by
  induction n with
  | zero => rfl
  | succ k ih => simpa [State.loadRegsFrom] using ih

@[simp] theorem State.loadRegsFrom_status (s : State) (a n : Nat) :
    (s.loadRegsFrom a n).status = s.status := by
  induction n with
  | zero => rfl
  | succ k ih => simpa [State.loadRegsFrom] using ih

@[simp] theorem State.loadRegsFrom_env (s : State) (a n : Nat) :
    (s.loadRegsFrom a n).env = s.env := by
  induction n with
  | zero => rfl
  | succ k ih => simpa [State.loadRegsFrom] using ih

@[simp] theorem State.loadRegsFrom_drawDone (s : State) (a n : Nat) :
    (s.loadRegsFrom a n).drawDone = s.drawDone := by
  induction n with
  | zero => rfl
  | succ k ih => simpa [State.loadRegsFrom] using ih

end Sys2Proof.Machine
end

