-- ==== Sys2Proof/Laws/Memory.lean ====
section
/-! SUPPORT. The laws of memory: what a read gives after a write, and that every operation keeps
the canonical form. -/

namespace Sys2Proof.Machine.Memory

@[simp] theorem read_nil (a : Nat) : read [] a = base a := rfl

theorem read_cons (b : Nat) (v : Byte) (m : Memory) (a : Nat) :
    read ((b, v) :: m) a = if a = b then v else read m a := rfl

/-- An address that no cell lists reads as its reset value. -/
theorem read_of_not_listed {m : Memory} {a : Nat} (h : ∀ c ∈ m, c.1 ≠ a) : read m a = base a := by
  induction m with
  | nil => rfl
  | cons c m ih =>
    obtain ⟨b, v⟩ := c
    have hb : a ≠ b := fun e => h (b, v) (by simp) e.symm
    rw [read_cons, if_neg hb]
    exact ih fun c hc => h c (by simp [hc])

theorem read_place_same (a : Nat) (v : Byte) {m : Memory} (h : ∀ c ∈ m, c.1 ≠ a) :
    read (place a v m) a = v := by
  unfold place
  split
  · rename_i hv; rw [read_of_not_listed h, hv]
  · simp [read_cons]

theorem read_place_other {a a' : Nat} (v : Byte) (m : Memory) (h : a' ≠ a) :
    read (place a v m) a' = read m a' := by
  unfold place
  split
  · rfl
  · simp [read_cons, h]

/-- A write changes the byte of no other address. -/
theorem read_write_other (m : Memory) {a a' : Nat} (v : Byte) (h : a' ≠ a) :
    read (write m a v) a' = read m a' := by
  induction m with
  | nil => exact read_place_other v [] h
  | cons c m ih =>
    obtain ⟨b, w⟩ := c
    unfold write
    split
    · exact read_place_other v _ h
    · split
      · rename_i hab
        rw [read_place_other v m h, read_cons, if_neg (by omega)]
      · rw [read_cons, read_cons, ih]

/-- A read after a write to the same address gives the byte written. -/
theorem read_write_same {m : Memory} (hm : m.Pairwise (fun c d => c.1 < d.1)) (a : Nat) (v : Byte) :
    read (write m a v) a = v := by
  induction m with
  | nil => exact read_place_same a v (by simp)
  | cons c m ih =>
    obtain ⟨b, w⟩ := c
    rw [List.pairwise_cons] at hm
    unfold write
    split
    · rename_i hab
      refine read_place_same a v fun c hc => ?_
      rcases List.mem_cons.1 hc with rfl | hc
      · exact Nat.ne_of_gt hab
      · have := hm.1 c hc
        exact Nat.ne_of_gt (Nat.lt_trans hab this)
    · split
      · rename_i hab
        subst hab
        exact read_place_same a v fun c hc => Nat.ne_of_gt (hm.1 c hc)
      · rename_i h1 h2
        rw [read_cons, if_neg h2]
        exact ih hm.2

/-- The addresses a placed cell lists. -/
theorem mem_place {a : Nat} {v : Byte} {m : Memory} {c : Host.Cell} (h : c ∈ place a v m) :
    (c = (a, v) ∧ v ≠ base a) ∨ c ∈ m := by
  unfold place at h
  split at h
  · exact .inr h
  · rename_i hv
    rcases List.mem_cons.1 h with h | h
    · exact .inl ⟨h, hv⟩
    · exact .inr h

/-- The cells a write leaves: the written one, if it is not at its reset value, and old ones. -/
theorem mem_write {m : Memory} {a : Nat} {v : Byte} {c : Host.Cell} (h : c ∈ write m a v) :
    (c = (a, v) ∧ v ≠ base a) ∨ c ∈ m := by
  induction m with
  | nil => exact mem_place h
  | cons d m ih =>
    obtain ⟨b, w⟩ := d
    unfold write at h
    split at h
    · exact mem_place h
    · split at h
      · rcases mem_place h with h | h
        · exact .inl h
        · exact .inr (List.mem_cons_of_mem _ h)
      · rcases List.mem_cons.1 h with h | h
        · exact .inr (by simp [h])
        · rcases ih h with h | h
          · exact .inl h
          · exact .inr (List.mem_cons_of_mem _ h)

theorem place_pairwise {a : Nat} {v : Byte} {m : Memory}
    (hm : m.Pairwise (fun c d => c.1 < d.1)) (h : ∀ c ∈ m, a < c.1) :
    (place a v m).Pairwise (fun c d => c.1 < d.1) := by
  unfold place
  split
  · exact hm
  · exact List.pairwise_cons.2 ⟨h, hm⟩

theorem write_pairwise {m : Memory} (hm : m.Pairwise (fun c d => c.1 < d.1)) (a : Nat) (v : Byte) :
    (write m a v).Pairwise (fun c d => c.1 < d.1) := by
  induction m with
  | nil => exact place_pairwise hm (by simp)
  | cons d m ih =>
    obtain ⟨b, w⟩ := d
    have hm' := List.pairwise_cons.1 hm
    unfold write
    split
    · rename_i hab
      refine place_pairwise hm fun c hc => ?_
      rcases List.mem_cons.1 hc with rfl | hc
      · exact hab
      · exact Nat.lt_trans hab (hm'.1 c hc)
    · split
      · rename_i hab
        subst hab
        exact place_pairwise hm'.2 hm'.1
      · rename_i h1 h2
        refine List.pairwise_cons.2 ⟨fun c hc => ?_, ih hm'.2⟩
        rcases mem_write hc with ⟨rfl, -⟩ | hc
        · show b < a; omega
        · exact hm'.1 c hc

/-- A write in range keeps the canonical form. -/
theorem wf_write {m : Memory} (hm : wf m) {a : Nat} (ha : a < Config.memSize) (v : Byte) :
    wf (write m a v) := by
  refine ⟨write_pairwise hm.1 a v, fun c hc => ?_⟩
  rcases mem_write hc with ⟨rfl, hv⟩ | hc
  · exact ⟨ha, hv⟩
  · exact hm.2 c hc

@[simp] theorem writeBytes_nil (m : Memory) (a : Nat) : writeBytes m a [] = m := rfl

@[simp] theorem writeBytes_cons (m : Memory) (a : Nat) (b : Byte) (bs : List Byte) :
    writeBytes m a (b :: bs) = writeBytes (write m a b) (a + 1) bs := rfl

/-- Bytes outside a written range read as before. -/
theorem read_writeBytes_other (m : Memory) (a : Nat) (bs : List Byte) {a' : Nat}
    (h : a' < a ∨ a + bs.length ≤ a') : read (writeBytes m a bs) a' = read m a' := by
  induction bs generalizing m a with
  | nil => rfl
  | cons b bs ih =>
    simp only [List.length_cons] at h
    rw [writeBytes_cons, ih (write m a b) (a + 1) (by omega), read_write_other m b (by omega)]

theorem writeBytes_pairwise {m : Memory} (hm : m.Pairwise (fun c d => c.1 < d.1)) (a : Nat)
    (bs : List Byte) : (writeBytes m a bs).Pairwise (fun c d => c.1 < d.1) := by
  induction bs generalizing m a with
  | nil => exact hm
  | cons b bs ih => exact ih (write_pairwise hm a b) (a + 1)

/-- Byte `k` of a written range reads as written. -/
theorem read_writeBytes_same {m : Memory} (hm : m.Pairwise (fun c d => c.1 < d.1)) (a : Nat)
    (bs : List Byte) (k : Nat) (hk : k < bs.length) :
    read (writeBytes m a bs) (a + k) = bs[k] := by
  induction bs generalizing m a k with
  | nil => simp at hk
  | cons b bs ih =>
    rw [writeBytes_cons]
    cases k with
    | zero =>
      rw [read_writeBytes_other _ _ _ (by omega)]
      exact read_write_same hm a b
    | succ k =>
      have := ih (write_pairwise hm a b) (a + 1) k (by simpa using hk)
      rw [show a + (k + 1) = a + 1 + k by omega, this]
      rfl

/-- The cells a range write leaves. -/
theorem mem_writeBytes {m : Memory} {a : Nat} {bs : List Byte} {c : Host.Cell}
    (h : c ∈ writeBytes m a bs) :
    (a ≤ c.1 ∧ c.1 < a + bs.length ∧ c.2 ≠ base c.1) ∨ c ∈ m := by
  induction bs generalizing m a with
  | nil => exact .inr h
  | cons b bs ih =>
    rcases ih h with ⟨h1, h2, h3⟩ | h
    · exact .inl ⟨by omega, by simp only [List.length_cons]; omega, h3⟩
    · rcases mem_write h with ⟨rfl, hv⟩ | h
      · exact .inl ⟨Nat.le_refl _, by simp, hv⟩
      · exact .inr h

/-- A range write in range keeps the canonical form. -/
theorem wf_writeBytes {m : Memory} (hm : wf m) {a : Nat} {bs : List Byte}
    (h : a + bs.length ≤ Config.memSize) : wf (writeBytes m a bs) := by
  refine ⟨writeBytes_pairwise hm.1 a bs, fun c hc => ?_⟩
  rcases mem_writeBytes hc with ⟨-, h2, h3⟩ | hc
  · exact ⟨by omega, h3⟩
  · exact hm.2 c hc

@[simp] theorem readBytes_length (m : Memory) (a n : Nat) : (readBytes m a n).length = n := by
  induction n generalizing a with
  | zero => rfl
  | succ n ih => simp [readBytes, ih]

/-- Byte `k` of a range read. -/
theorem readBytes_getElem (m : Memory) (a n k : Nat) (hk : k < n) :
    (readBytes m a n)[k]'(by simpa using hk) = read m (a + k) := by
  induction n generalizing a k with
  | zero => omega
  | succ n ih =>
    cases k with
    | zero => rfl
    | succ k =>
      simp only [readBytes, List.getElem_cons_succ]
      rw [ih (a + 1) k (by omega), show a + 1 + k = a + (k + 1) by omega]

/-- The reset memory, nothing listed, is canonical. -/
theorem wf_nil : wf [] := by simp [wf]

end Sys2Proof.Machine.Memory
end

