-- ==== Sys2Proof/Laws/Ops.lean ====
section
/-! SUPPORT. One lemma for each shared operation, saying once everything it does: registers, flags,
checks, errors, the call stack, loads, timers. -/

namespace Sys2Proof.Machine

/-! ## Registers -/

/-- What a register write leaves in every register (10 R22). -/
theorem State.reg_writeReg (s : State) (r r' : Reg) (raw : Int) :
    (s.writeReg r raw).reg r' = if r' = r then BitVec.ofInt 8 raw else s.reg r' := by
  unfold State.reg State.writeReg
  by_cases h : r' = r
  · subst h; simp
  · have : r.toNat ≠ r'.toNat := fun e => h (BitVec.eq_of_toNat_eq e.symm)
    simp [h, this]

@[simp] theorem State.reg_writeReg_same (s : State) (r : Reg) (raw : Int) :
    (s.writeReg r raw).reg r = BitVec.ofInt 8 raw := by simp [State.reg_writeReg]

theorem State.reg_writeReg_ne (s : State) {r r' : Reg} (raw : Int) (h : r' ≠ r) :
    (s.writeReg r raw).reg r' = s.reg r' := by simp [State.reg_writeReg, h]

/-- The stored value is the raw value modulo 256 (10 R22). -/
theorem toNat_ofInt8 (raw : Int) : ((BitVec.ofInt 8 raw).toNat : Int) = raw % 256 := by
  rw [BitVec.toNat_ofInt]
  omega

@[simp] theorem ofInt8_toNat (b : Byte) : BitVec.ofInt 8 (b.toNat : Int) = b := by
  apply BitVec.eq_of_toNat_eq
  have := toNat_ofInt8 (b.toNat : Int)
  have := b.isLt
  omega

/-- A value that fits leaves the overflow indicator 0. -/
theorem ovf_of_byte (n : Nat) (h : n < 256) : decide ((n : Int) < 0 ∨ 256 ≤ (n : Int)) = false := by
  simp; omega

@[simp] theorem ovf_flagValue (b : Bool) :
    decide (flagValue b < 0 ∨ 256 ≤ flagValue b) = false := by cases b <;> rfl

@[simp] theorem ovf_not_flagValue (b : Bool) :
    decide (1 - flagValue b < 0 ∨ 256 ≤ 1 - flagValue b) = false := by cases b <;> rfl

/-- VF after the three ways a flag is written, and the indicator they leave (10 R23, R24). -/
theorem State.writeThenFlag_eq (s : State) (x : Reg) (raw : Int) (flag : Bool) :
    s.writeThenFlag x raw flag = (s.writeReg x raw).writeReg vf (flagValue flag) := rfl

theorem State.writeCarry_eq (s : State) (x : Reg) (raw : Int) :
    s.writeCarry x raw =
      (s.writeReg x raw).writeReg vf (flagValue (decide (raw < 0 ∨ 256 ≤ raw))) := rfl

theorem State.writeNoBorrow_eq (s : State) (x : Reg) (raw : Int) :
    s.writeNoBorrow x raw =
      (s.writeReg x raw).writeReg vf (1 - flagValue (decide (raw < 0 ∨ 256 ≤ raw))) := rfl

/-! ## Loading registers from memory -/

theorem reg_ofNat_lt {k n : Nat} (hn : n ≤ 16) (h : k < n) :
    (BitVec.ofNat 4 k : Reg).toNat = k := by
  rw [BitVec.toNat_ofNat]; omega

/-- Registers 0 to `n - 1` after a load hold the bytes at `a` upward, the others are unchanged
(43 R195). -/
theorem State.reg_loadRegsFrom (s : State) (a n : Nat) (hn : n ≤ 16) (r : Reg) :
    (s.loadRegsFrom a n).reg r =
      if r.toNat < n then Memory.read s.mem (a + r.toNat) else s.reg r := by
  induction n with
  | zero => simp [State.loadRegsFrom]
  | succ k ih =>
    have ih := ih (by omega)
    simp only [State.loadRegsFrom, State.reg_writeReg, State.loadRegsFrom_mem, ofInt8_toNat]
    by_cases h : r = BitVec.ofNat 4 k
    · have hk : r.toNat = k := by rw [h, BitVec.toNat_ofNat]; omega
      rw [if_pos h, hk, if_pos (by omega)]
    · have hk : r.toNat ≠ k := fun e => h (by
        apply BitVec.eq_of_toNat_eq; rw [e, BitVec.toNat_ofNat]; omega)
      rw [if_neg h, ih]
      by_cases h2 : r.toNat < k
      · rw [if_pos h2, if_pos (by omega)]
      · rw [if_neg h2, if_neg (by omega)]

/-- A load of at least one register leaves the overflow indicator 0 (43 R195). -/
theorem State.ovf_loadRegsFrom (s : State) (a n : Nat) :
    (s.loadRegsFrom a (n + 1)).ovf = false := by
  simp only [State.loadRegsFrom, State.writeReg_ovf]
  exact ovf_of_byte _ (BitVec.isLt _)

/-- The stored block of `store_regs` (43 R194). -/
theorem State.regsUpTo_length (s : State) (x : Reg) : (s.regsUpTo x).length = x.toNat + 1 := by
  have := x.isLt
  simp [State.regsUpTo, countOf]; omega

theorem State.regsUpTo_getElem (s : State) (x : Reg) (k : Nat) (hk : k < (s.regsUpTo x).length) :
    (s.regsUpTo x)[k] = s.reg (BitVec.ofNat 4 k) := by
  have hl := s.regsUpTo_length x
  have := x.isLt
  have hk' : (BitVec.ofNat 4 k : Reg).toNat = k := by rw [BitVec.toNat_ofNat]; omega
  simp [State.regsUpTo, State.reg, hk']

/-! ## Checks (20 R68, R69, 10 R31, R32, 43 R192, 45 R236) -/

theorem checkRead_eq_none {a n : Nat} : checkRead a n = none ↔ n = 0 ∨ a + n ≤ 0x1000 := by
  unfold checkRead; split <;> simp <;> omega

theorem checkRead_eq_some {a n : Nat} {c : Cause} :
    checkRead a n = some c ↔ c = .memoryRangeFault ∧ n ≠ 0 ∧ 0x1000 < a + n := by
  unfold checkRead; split
  · simp only [Option.some.injEq]; constructor
    · rintro rfl; exact ⟨rfl, by omega, by omega⟩
    · rintro ⟨rfl, -, -⟩; rfl
  · simp; omega

theorem checkWrite_eq_none {a n : Nat} :
    checkWrite a n = none ↔ a + n ≤ 0x1000 ∧ 0x200 ≤ a := by
  have h200 : Config.progBase = 0x200 := rfl
  unfold checkWrite; split
  · simp; omega
  · split <;> simp <;> omega

theorem checkWrite_eq_some {a n : Nat} {c : Cause} :
    checkWrite a n = some c ↔
      (c = .memoryRangeFault ∧ 0x1000 < a + n) ∨
      (c = .writeProtectFault ∧ a + n ≤ 0x1000 ∧ a < 0x200) := by
  unfold checkWrite; simp only [Config.progBase]; split
  · cases c <;> simp <;> omega
  · split
    · cases c <;> simp <;> omega
    · cases c <;> simp <;> omega

theorem State.checkPush_eq_none {s : State} : s.checkPush = none ↔ s.sp.val < 16 := by
  have h17 : s.sp.val < 17 := s.sp.isLt
  unfold State.checkPush
  by_cases h : s.sp.val = 16
  · rw [if_pos h]; simp; omega
  · rw [if_neg h]; simp; omega

theorem State.checkPush_eq_some {s : State} {c : Cause} :
    s.checkPush = some c ↔ c = .stackOverflow ∧ s.sp.val = 16 := by
  unfold State.checkPush
  by_cases h : s.sp.val = 16
  · rw [if_pos h]; simp [h, eq_comm]
  · rw [if_neg h]; simp [h]

theorem State.checkPop_eq_none {s : State} : s.checkPop = none ↔ 0 < s.sp.val := by
  unfold State.checkPop
  by_cases h : s.sp.val = 0
  · rw [if_pos h]; simp [h]
  · rw [if_neg h]; simp only [true_iff]; omega

theorem State.checkPop_eq_some {s : State} {c : Cause} :
    s.checkPop = some c ↔ c = .stackUnderflow ∧ s.sp.val = 0 := by
  unfold State.checkPop
  by_cases h : s.sp.val = 0
  · rw [if_pos h]; simp [h, eq_comm]
  · rw [if_neg h]; simp [h]

theorem checkFontIndex_eq_none {b : Byte} : checkFontIndex b = none ↔ b.toNat ≤ 15 := by
  unfold checkFontIndex; split <;> simp <;> omega

theorem checkFontIndex_eq_some {b : Byte} {c : Cause} :
    checkFontIndex b = some c ↔ c = .invalidFontIndex ∧ 15 < b.toNat := by
  unfold checkFontIndex; split
  · simp_all [eq_comm]
  · simp_all

theorem checkKeyIndex_eq_none {b : Byte} : checkKeyIndex b = none ↔ b.toNat ≤ 15 := by
  unfold checkKeyIndex; split <;> simp <;> omega

theorem checkKeyIndex_eq_some {b : Byte} {c : Cause} :
    checkKeyIndex b = some c ↔ c = .invalidKeyIndex ∧ 15 < b.toNat := by
  unfold checkKeyIndex; split
  · simp_all [eq_comm]
  · simp_all

/-- What a checked instruction answers: the error its check names, or its effect (40 R124). -/
theorem State.checkThen_cases (s : State) (i : Instr) (check : Option Cause) (effect : State) :
    (∃ c, check = some c ∧ s.checkThen i check effect = .next (s.takeError c (encode i))) ∨
    (check = none ∧ s.checkThen i check effect = .next effect) := by
  cases check with
  | some c => exact .inl ⟨c, rfl, rfl⟩
  | none => exact .inr ⟨rfl, rfl⟩

@[simp] theorem State.checkThen_some (s : State) (i : Instr) (c : Cause) (effect : State) :
    s.checkThen i (some c) effect = .next (s.takeError c (encode i)) := rfl

@[simp] theorem State.checkThen_none (s : State) (i : Instr) (effect : State) :
    s.checkThen i none effect = .next effect := rfl

/-! ## The call stack (10 R30 to R32) -/

theorem State.push_of_lt (s : State) (w : Word) (h : s.sp.val < Config.stackDepth) :
    s.push w =
      { s with stack := s.stack.set s.sp.val w h, sp := ⟨s.sp.val + 1, Nat.succ_lt_succ h⟩ } := by
  simp [State.push, h]

/-- The depth after a push. -/
theorem State.push_sp_val (s : State) (w : Word) (h : s.sp.val < Config.stackDepth) :
    (s.push w).sp.val = s.sp.val + 1 := by rw [State.push_of_lt s w h]

/-- The entry pushed is the newest one. -/
theorem State.push_top (s : State) (w : Word) (h : s.sp.val < Config.stackDepth) :
    (s.push w).top = w := by
  rw [State.push_of_lt s w h]; simp [State.top]

/-- A push leaves the older entries. -/
theorem State.push_stack_other (s : State) (w : Word) (k : Nat) (hk : k < Config.stackDepth)
    (h : k ≠ s.sp.val) : (s.push w).stack[k] = s.stack[k] := by
  unfold State.push; split
  · simp [Ne.symm h]
  · rfl

/-! ## Timers (60 R271) -/

theorem tickValue_toNat (t : Byte) : (tickValue t).toNat = t.toNat - 1 := by
  have := t.isLt
  unfold tickValue; split
  · rw [BitVec.toNat_sub]; simp; omega
  · omega

/-- A timer never goes below 0 and never wraps (60 R271). -/
theorem tickMany_toNat (n : Nat) (t : Byte) : (tickMany n t).toNat = t.toNat - n := by
  induction n generalizing t with
  | zero => rfl
  | succ n ih => rw [tickMany, ih, tickValue_toNat]; omega

/-! ## Errors (60 R250) -/

/-- The codes of the fatal causes. -/
theorem Cause.fatal_iff (c : Cause) :
    c.fatal = true ↔ c.code = 3 ∨ c.code = 4 ∨ c.code = 7 ∨ c.code = 8 := by
  cases c <;> decide

end Sys2Proof.Machine
end

