-- ==== Sys2Proof/Laws/Framebuffer.lean ====
section
/-! SUPPORT. The laws of the framebuffer's bytes and pixels. -/

namespace Sys2Proof.Machine.Framebuffer

/-- What one byte reads as after a byte is set. -/
theorem byte_setByte (fb : Framebuffer) (r r' : Fin Config.fbHeight) (c c' : Fin Config.fbWb)
    (b : Byte) :
    byte (setByte fb r c b) r' c' = if r' = r ∧ c' = c then b else byte fb r' c' := by
  unfold byte setByte
  by_cases hr : r' = r
  · subst hr
    by_cases hc : c' = c
    · subst hc; simp
    · have : c.val ≠ c'.val := fun e => hc (Fin.ext e.symm)
      simp [hc, this]
  · have : r.val ≠ r'.val := fun e => hr (Fin.ext e.symm)
    simp [hr, this]

@[simp] theorem byte_cleared (r : Fin Config.fbHeight) (c : Fin Config.fbWb) :
    byte cleared r c = 0 := by simp [byte, cleared]

/-- Two grids with the same bytes are the same grid. -/
theorem ext_byte {fb fb' : Framebuffer} (h : ∀ r c, byte fb r c = byte fb' r c) : fb = fb' := by
  apply Vector.ext; intro r hr
  apply Vector.ext; intro c hc
  exact h ⟨r, hr⟩ ⟨c, hc⟩

/-- What one byte reads as after one byte is composited (44 R211). -/
theorem byte_composite (acc : Framebuffer × Bool) (r r' : Fin Config.fbHeight)
    (c c' : Fin Config.fbWb) (bits : Byte) :
    byte (composite acc r c bits).1 r' c' =
      if r' = r ∧ c' = c then byte acc.1 r c ^^^ bits else byte acc.1 r' c' :=
  byte_setByte acc.1 r r' c c' _

/-- The two byte columns of a sprite row are distinct (D1). -/
theorem colOf_succ_ne (c : Nat) : colOf (c + 1) ≠ colOf c := by
  intro h
  have := congrArg Fin.val h
  simp only [colOf, Config.fbWb, Config.fbWidth] at this
  omega

@[simp] theorem drawRows_nil (acc : Framebuffer × Bool) (x y : Nat) : drawRows acc x y [] = acc := rfl

@[simp] theorem drawRows_cons (acc : Framebuffer × Bool) (x y : Nat) (b : Byte) (bs : List Byte) :
    drawRows acc x y (b :: bs) = drawRows (drawRow acc x (rowOf y) b) x (y + 1) bs := rfl

/-- What one byte reads as after a sprite row is drawn (44 R211). -/
theorem byte_drawRow (acc : Framebuffer × Bool) (x : Nat) (r r' : Fin Config.fbHeight) (b : Byte)
    (c' : Fin Config.fbWb) :
    byte (drawRow acc x r b).1 r' c' =
      if r' = r ∧ c' = colOf (x / 8) then byte acc.1 r' c' ^^^ leftPart (x % 8) b
      else if r' = r ∧ c' = colOf (x / 8 + 1) then byte acc.1 r' c' ^^^ rightPart (x % 8) b
      else byte acc.1 r' c' := by
  have hne := colOf_succ_ne (x / 8)
  unfold drawRow
  rw [byte_composite, byte_composite, byte_composite]
  by_cases hr : r' = r
  · subst hr
    by_cases h1 : c' = colOf (x / 8)
    · subst h1; simp [Ne.symm hne]
    · by_cases h2 : c' = colOf (x / 8 + 1)
      · subst h2; simp [hne]
      · simp [h1, h2]
  · simp [hr]

end Sys2Proof.Machine.Framebuffer
end

