-- ==== Sys2Proof/Laws/PerInstr.lean ====
section
/-! SUPPORT. A law of every instruction as syntax, one lemma for each constructor: the word an
instruction encodes to matches its own row of the opcode table (30 R95). -/

namespace Sys2Proof.Laws

/-- Masks of the four shapes, as words built from fields. -/
theorem mask_F0FF : (0xF0FF : Word) = ofXK 0xF 0x0 0xFF := by decide
theorem mask_F000_XK : (0xF000 : Word) = ofXK 0xF 0x0 0x00 := by decide
theorem mask_F000_A : (0xF000 : Word) = ofA 0xF 0x000 := by decide
theorem mask_F000_N : (0xF000 : Word) = ofNibbles 0xF 0x0 0x0 0x0 := by decide
theorem mask_F00F : (0xF00F : Word) = ofNibbles 0xF 0x0 0x0 0xF := by decide

/-- A word of format XK under the mask 0xF0FF keeps its top nibble and its sub-code. -/
theorem hits_F0FF (t x : Nibble) (kk : Byte) : ofXK t x kk &&& 0xF0FF = ofXK t 0 kk := by
  rw [mask_F0FF, ofXK_and]
  congr 1
  · exact BitVec.and_allOnes (x := t)
  · exact BitVec.and_zero
  · exact BitVec.and_allOnes (x := kk)

/-- A word of format XK under the mask 0xF000 keeps its top nibble. -/
theorem hits_F000_XK (t x : Nibble) (kk : Byte) : ofXK t x kk &&& 0xF000 = ofXK t 0 0 := by
  rw [mask_F000_XK, ofXK_and]
  congr 1
  · exact BitVec.and_allOnes (x := t)
  · exact BitVec.and_zero
  · exact BitVec.and_zero

/-- A word of format A under the mask 0xF000 keeps its top nibble. -/
theorem hits_F000_A (t : Nibble) (nnn : Addr) : ofA t nnn &&& 0xF000 = ofA t 0 := by
  rw [mask_F000_A, ofA_and]
  congr 1
  · exact BitVec.and_allOnes (x := t)
  · exact BitVec.and_zero

/-- A word of four nibbles under the mask 0xF000 keeps the first. -/
theorem hits_F000_N (t x y n : Nibble) : ofNibbles t x y n &&& 0xF000 = ofNibbles t 0 0 0 := by
  rw [mask_F000_N, ofNibbles_and]
  congr 1
  · exact BitVec.and_allOnes (x := t)
  · exact BitVec.and_zero
  · exact BitVec.and_zero
  · exact BitVec.and_zero

/-- A word of four nibbles under the mask 0xF00F keeps the first and the last. -/
theorem hits_F00F (t x y n : Nibble) : ofNibbles t x y n &&& 0xF00F = ofNibbles t 0 0 n := by
  rw [mask_F00F, ofNibbles_and]
  congr 1
  · exact BitVec.and_allOnes (x := t)
  · exact BitVec.and_zero
  · exact BitVec.and_zero
  · exact BitVec.and_allOnes (x := n)

/-- The encoding of an instruction matches its row of the opcode table. -/
def TableRow.Statement (i : Instr) : Prop := encode i &&& (tableRow i).mask = (tableRow i).pattern

theorem TableRow.clearScreen (z : Nibble) : TableRow.Statement (.clearScreen z) :=
  (hits_F0FF _ _ _).trans (by rfl)

theorem TableRow.retFromSub (z : Nibble) : TableRow.Statement (.retFromSub z) :=
  (hits_F0FF _ _ _).trans (by rfl)

theorem TableRow.jmp (nnn : Addr) : TableRow.Statement (.jmp nnn) :=
  (hits_F000_A _ _).trans (by rfl)

theorem TableRow.jsr (nnn : Addr) : TableRow.Statement (.jsr nnn) :=
  (hits_F000_A _ _).trans (by rfl)

theorem TableRow.skipEqImm (x : Reg) (kk : Byte) : TableRow.Statement (.skipEqImm x kk) :=
  (hits_F000_XK _ _ _).trans (by rfl)

theorem TableRow.skipNeImm (x : Reg) (kk : Byte) : TableRow.Statement (.skipNeImm x kk) :=
  (hits_F000_XK _ _ _).trans (by rfl)

theorem TableRow.skipEqReg (x : Reg) (y : Reg) (z : Nibble) : TableRow.Statement (.skipEqReg x y z) :=
  (hits_F000_N _ _ _ _).trans (by rfl)

theorem TableRow.movImm (x : Reg) (kk : Byte) : TableRow.Statement (.movImm x kk) :=
  (hits_F000_XK _ _ _).trans (by rfl)

theorem TableRow.addImm (x : Reg) (kk : Byte) : TableRow.Statement (.addImm x kk) :=
  (hits_F000_XK _ _ _).trans (by rfl)

theorem TableRow.mov (x : Reg) (y : Reg) : TableRow.Statement (.mov x y) :=
  (hits_F00F _ _ _ _).trans (by rfl)

theorem TableRow.orReg (x : Reg) (y : Reg) : TableRow.Statement (.orReg x y) :=
  (hits_F00F _ _ _ _).trans (by rfl)

theorem TableRow.andReg (x : Reg) (y : Reg) : TableRow.Statement (.andReg x y) :=
  (hits_F00F _ _ _ _).trans (by rfl)

theorem TableRow.xorReg (x : Reg) (y : Reg) : TableRow.Statement (.xorReg x y) :=
  (hits_F00F _ _ _ _).trans (by rfl)

theorem TableRow.add (x : Reg) (y : Reg) : TableRow.Statement (.add x y) :=
  (hits_F00F _ _ _ _).trans (by rfl)

theorem TableRow.sub (x : Reg) (y : Reg) : TableRow.Statement (.sub x y) :=
  (hits_F00F _ _ _ _).trans (by rfl)

theorem TableRow.shr (x : Reg) (y : Reg) : TableRow.Statement (.shr x y) :=
  (hits_F00F _ _ _ _).trans (by rfl)

theorem TableRow.subn (x : Reg) (y : Reg) : TableRow.Statement (.subn x y) :=
  (hits_F00F _ _ _ _).trans (by rfl)

theorem TableRow.shl (x : Reg) (y : Reg) : TableRow.Statement (.shl x y) :=
  (hits_F00F _ _ _ _).trans (by rfl)

theorem TableRow.skipNeReg (x : Reg) (y : Reg) (z : Nibble) : TableRow.Statement (.skipNeReg x y z) :=
  (hits_F000_N _ _ _ _).trans (by rfl)

theorem TableRow.movIndex (nnn : Addr) : TableRow.Statement (.movIndex nnn) :=
  (hits_F000_A _ _).trans (by rfl)

theorem TableRow.jmpV0 (nnn : Addr) : TableRow.Statement (.jmpV0 nnn) :=
  (hits_F000_A _ _).trans (by rfl)

theorem TableRow.rand (x : Reg) (kk : Byte) : TableRow.Statement (.rand x kk) :=
  (hits_F000_XK _ _ _).trans (by rfl)

theorem TableRow.draw (x : Reg) (y : Reg) (n : Nibble) : TableRow.Statement (.draw x y n) :=
  (hits_F000_N _ _ _ _).trans (by rfl)

theorem TableRow.skipKeyPressed (x : Reg) : TableRow.Statement (.skipKeyPressed x) :=
  (hits_F0FF _ _ _).trans (by rfl)

theorem TableRow.skipKeyNotPressed (x : Reg) : TableRow.Statement (.skipKeyNotPressed x) :=
  (hits_F0FF _ _ _).trans (by rfl)

theorem TableRow.getDelay (x : Reg) : TableRow.Statement (.getDelay x) :=
  (hits_F0FF _ _ _).trans (by rfl)

theorem TableRow.waitKey (x : Reg) : TableRow.Statement (.waitKey x) :=
  (hits_F0FF _ _ _).trans (by rfl)

theorem TableRow.setDelay (x : Reg) : TableRow.Statement (.setDelay x) :=
  (hits_F0FF _ _ _).trans (by rfl)

theorem TableRow.setSound (x : Reg) : TableRow.Statement (.setSound x) :=
  (hits_F0FF _ _ _).trans (by rfl)

theorem TableRow.addIndex (x : Reg) : TableRow.Statement (.addIndex x) :=
  (hits_F0FF _ _ _).trans (by rfl)

theorem TableRow.fontIndex (x : Reg) : TableRow.Statement (.fontIndex x) :=
  (hits_F0FF _ _ _).trans (by rfl)

theorem TableRow.storeBcd (x : Reg) : TableRow.Statement (.storeBcd x) :=
  (hits_F0FF _ _ _).trans (by rfl)

theorem TableRow.storeRegs (x : Reg) : TableRow.Statement (.storeRegs x) :=
  (hits_F0FF _ _ _).trans (by rfl)

theorem TableRow.loadRegs (x : Reg) : TableRow.Statement (.loadRegs x) :=
  (hits_F0FF _ _ _).trans (by rfl)

end Sys2Proof.Laws
end

