-- ==== Sys2Proof/Laws/Step.lean ====
section
/-! SUPPORT. What a meaning, and a step, can do: the case analyses that proofs over all instructions
begin with. -/

namespace Sys2Proof.Machine

/-- The error an instruction can report or raise (60 R251). -/
def CanTake (i : Instr) (c : Cause) : Prop :=
  (c = .stackOverflow ∧ ∃ nnn, i = .jsr nnn) ∨
  (c = .stackUnderflow ∧ ∃ z, i = .retFromSub z) ∨
  (c = .invalidFontIndex ∧ ∃ x, i = .fontIndex x) ∨
  (c = .invalidKeyIndex ∧ ∃ x, i = .skipKeyPressed x) ∨
  (c = .invalidKeyIndex ∧ ∃ x, i = .skipKeyNotPressed x) ∨
  (c = .memoryRangeFault ∧ ∃ x y n, i = .draw x y n) ∨
  (c = .memoryRangeFault ∧ ∃ x, i = .loadRegs x) ∨
  ((c = .memoryRangeFault ∨ c = .writeProtectFault) ∧ ∃ x, i = .storeBcd x ∨ i = .storeRegs x)

/-- A checked effect answers a next state: the effect, or the error of the check. -/
theorem State.checkThen_next {s : State} {i : Instr} {check : Option Cause} {effect : State}
    (he : effect.status = s.status) (hc : ∀ c, check = some c → CanTake i c) :
    ∃ t, s.checkThen i check effect = .next t ∧
      (t.status = s.status ∨ ∃ c, t = s.takeError c (encode i) ∧ CanTake i c) := by
  rcases s.checkThen_cases i check effect with ⟨c, h, e⟩ | ⟨-, e⟩
  · exact ⟨_, e, .inr ⟨c, rfl, hc c h⟩⟩
  · exact ⟨_, e, .inl he⟩

/-- Every meaning answers a next state, and either leaves `STATUS` alone or takes one error, with the
instruction's own word as its info. -/
theorem exec_cases (i : Instr) (s : State) :
    ∃ t, exec i s = .next t ∧
      (t.status = s.status ∨ ∃ c, t = s.takeError c (encode i) ∧ CanTake i c) := by
  cases i
  case jsr =>
    exact State.checkThen_next (by simp) fun c h => by
      simp [CanTake, (State.checkPush_eq_some.1 h).1]
  case retFromSub =>
    exact State.checkThen_next (by simp) fun c h => by
      simp [CanTake, (State.checkPop_eq_some.1 h).1]
  case fontIndex =>
    exact State.checkThen_next (by simp) fun c h => by
      simp [CanTake, (checkFontIndex_eq_some.1 h).1]
  case skipKeyPressed =>
    exact State.checkThen_next (by simp) fun c h => by
      simp [CanTake, (checkKeyIndex_eq_some.1 h).1]
  case skipKeyNotPressed =>
    exact State.checkThen_next (by simp) fun c h => by
      simp [CanTake, (checkKeyIndex_eq_some.1 h).1]
  case draw =>
    exact State.checkThen_next (by simp) fun c h => by
      simp [CanTake, (checkRead_eq_some.1 h).1]
  case loadRegs =>
    exact State.checkThen_next (by simp) fun c h => by
      simp [CanTake, (checkRead_eq_some.1 h).1]
  case storeBcd =>
    exact State.checkThen_next (by simp) fun c h => by
      rcases checkWrite_eq_some.1 h with ⟨rfl, _⟩ | ⟨rfl, _⟩ <;> simp [CanTake]
  case storeRegs =>
    exact State.checkThen_next (by simp) fun c h => by
      rcases checkWrite_eq_some.1 h with ⟨rfl, _⟩ | ⟨rfl, _⟩ <;> simp [CanTake]
  all_goals first | exact ⟨_, rfl, .inl rfl⟩ | exact ⟨_, rfl, .inl (by simp)⟩

/-- What `Step()` does when it is not refused: a fetch fault, a decode error, or the decoded
instruction on the advanced state. -/
theorem interpret_cases {s t : State} (h : interpret s = .next t) :
    s.status.halted = false ∧
    ((s.fetchable = false ∧ t = s.takeError .memoryRangeFault s.pc) ∨
     (s.fetchable = true ∧ (∃ why, decode s.fetched = .invalid why) ∧
        t = s.advance.takeError .decodeError s.fetched) ∨
     (s.fetchable = true ∧ ∃ i, decode s.fetched = .instr i ∧ exec i s.advance = .next t)) := by
  unfold interpret at h
  split at h
  · cases h
  · rename_i hh
    refine ⟨by simpa using hh, ?_⟩
    split at h
    · rename_i hf
      unfold execWord at h
      split at h
      · rename_i why hw
        cases h
        exact .inr (.inl ⟨hf, ⟨why, hw⟩, rfl⟩)
      · rename_i i hi
        exact .inr (.inr ⟨hf, i, hi, h⟩)
    · rename_i hf
      cases h
      exact .inl ⟨by simpa using hf, rfl⟩

end Sys2Proof.Machine
end

