-- ==== Sys2Proof/Machine/Assembler.lean ====
section
/-! DEFINITION. The assembler notation of the spec (30 R100, R101): one line of text to one
instruction or directive, and a list of lines to the bytes they stand for. The core does not depend
on it; it gives test programs and claims about them a spelling.

Where the rules leave the notation open the choices are in log 15.
-/

namespace Sys2Proof.Asm

open Sys2Proof.Machine

/-! ## Tokens -/

/-- A piece of a line of text. -/
abbrev Token := List Char

def isBlank (c : Char) : Bool := c == ' ' || c == '\t'

def trim (t : Token) : Token := ((t.dropWhile isBlank).reverse.dropWhile isBlank).reverse

/-- The text before a comment, which `;` starts (30 R100). -/
def beforeComment (t : Token) : Token := t.takeWhile (· != ';')

/-- The operands of a line are separated by commas (30 R100). -/
def splitCommas : Token → List Token
  | [] => [[]]
  | c :: cs =>
    if c == ',' then [] :: splitCommas cs
    else
      match splitCommas cs with
      | [] => [[c]]
      | w :: ws => (c :: w) :: ws

/-- The digits 0 to F, each at the place of its value. -/
def upperDigits : Token := "0123456789ABCDEF".toList

/-- The same digits in lower case (log 15). -/
def lowerDigits : Token := "0123456789abcdef".toList

/-- The value of a hexadecimal digit: its place among the digits. -/
def hexDigit (c : Char) : Option Nat :=
  (upperDigits.findIdx? (· == c)).or (lowerDigits.findIdx? (· == c))

/-- A digit string in a base, read from the accumulated value on. -/
def digits (base : Nat) : Nat → Token → Option Nat
  | acc, [] => some acc
  | acc, c :: cs =>
    match hexDigit c with
    | some d => if d < base then digits base (base * acc + d) cs else none
    | none => none

/-- A number is decimal or `0x` hexadecimal (30 R100), with any number of digits. DESIGN CHOICE
(log 15): the `x` is lower-case, and leading zeros are accepted. -/
def number : Token → Option Nat
  | [] => none
  | '0' :: 'x' :: c :: cs => digits 16 0 (c :: cs)
  | c :: cs => digits 10 0 (c :: cs)

/-- A register is `V` followed by one hexadecimal digit (30 R100). -/
def register : Token → Option Reg
  | ['V', d] => (hexDigit d).map (BitVec.ofNat 4)
  | _ => none

/-! ## Operands -/

/-- The labels of a program and the byte addresses they stand for (30 R100). -/
abbrev Labels := List (Token × Nat)

/-- A number or a label; DESIGN CHOICE (log 15): either may stand wherever a number may, and a name that
is a number is read as the number. -/
def value (ls : Labels) (t : Token) : Option Nat :=
  match number t with
  | some n => some n
  | none => (ls.find? (fun l => l.1 == t)).map (·.2)

/-- A number that must fit its field, else the line is rejected (30 R100). -/
def field (w : Nat) (ls : Labels) (t : Token) : Option (BitVec w) :=
  (value ls t).bind fun n => if n < 2 ^ w then some (BitVec.ofNat w n) else none

/-- The operand shapes of the mnemonics (30 R92, R100). -/
inductive Shape where
  | plain (i : Instr)
  | addr (mk : Addr → Instr)
  | regImm (mk : Reg → Byte → Instr)
  | regReg (mk : Reg → Reg → Instr)
  | regRegNum (mk : Reg → Reg → Nibble → Instr)
  | reg (mk : Reg → Instr)
  /-- `shr` and `shl`: one operand, `y` encoded as 0, or two, the second encoded as `y` (30 R100).
  DESIGN CHOICE (log 18): the two-operand spelling may so emit a word that is not canonical, where
  30 R97 says that only canonical encodings are emitted. -/
  | shift (mk : Reg → Reg → Instr)

/-- The instruction of a mnemonic's shape and its operands. -/
def Shape.build (ls : Labels) : Shape → List Token → Option Instr
  | .plain i, [] => some i
  | .addr mk, [a] => (field 12 ls a).map mk
  | .regImm mk, [x, k] => (register x).bind fun rx => (field 8 ls k).map (mk rx)
  | .regReg mk, [x, y] => (register x).bind fun rx => (register y).map (mk rx)
  | .regRegNum mk, [x, y, n] =>
    (register x).bind fun rx => (register y).bind fun ry => (field 4 ls n).map (mk rx ry)
  | .reg mk, [x] => (register x).map mk
  | .shift mk, [x] => (register x).map fun rx => mk rx 0
  | .shift mk, [x, y] => (register x).bind fun rx => (register y).map (mk rx)
  | _, _ => none

/-- The mnemonics of control transfer, the framebuffer, the keys and the timers (30 R100). -/
def mnemonicsControl : List (String × Shape) :=
  [("clear_screen", .plain (.clearScreen 0)), ("ret_from_sub", .plain (.retFromSub 0)),
   ("jmp", .addr .jmp), ("jsr", .addr .jsr), ("jmp_v0", .addr .jmpV0),
   ("skip_eq_imm", .regImm .skipEqImm), ("skip_ne_imm", .regImm .skipNeImm),
   ("skip_eq_reg", .regReg (.skipEqReg · · 0)), ("skip_ne_reg", .regReg (.skipNeReg · · 0)),
   ("draw", .regRegNum .draw), ("skip_key_pressed", .reg .skipKeyPressed),
   ("skip_key_not_pressed", .reg .skipKeyNotPressed), ("wait_key", .reg .waitKey),
   ("get_delay", .reg .getDelay), ("set_delay", .reg .setDelay), ("set_sound", .reg .setSound)]

/-- The mnemonics of the registers, the ALU, the index register and memory (30 R100). -/
def mnemonicsData : List (String × Shape) :=
  [("mov_imm", .regImm .movImm), ("add_imm", .regImm .addImm), ("mov", .regReg .mov),
   ("or", .regReg .orReg), ("and", .regReg .andReg), ("xor", .regReg .xorReg),
   ("add", .regReg .add), ("sub", .regReg .sub), ("shr", .shift .shr), ("subn", .regReg .subn),
   ("shl", .shift .shl), ("rand", .regImm .rand), ("mov_index", .addr .movIndex),
   ("add_index", .reg .addIndex), ("font_index", .reg .fontIndex), ("store_bcd", .reg .storeBcd),
   ("store_regs", .reg .storeRegs), ("load_regs", .reg .loadRegs)]

/-- The 34 mnemonics (30 R100). -/
def mnemonics : List (String × Shape) := mnemonicsControl ++ mnemonicsData

/-! ## Lines -/

/-- A line: its label, its mnemonic or directive, its operands. -/
structure Line where
  label : Option Token
  head : Token
  operands : List Token
  deriving DecidableEq, Repr

/-- The head word and the operands of a line without label and comment. -/
def parseBody (label : Option Token) (t : Token) : Line :=
  let body := trim t
  let rest := trim (body.dropWhile (fun c => !isBlank c))
  { label := label
    head := body.takeWhile (fun c => !isBlank c)
    operands := if rest.isEmpty then [] else (splitCommas rest).map trim }

/-- A line of text (30 R100). The rule says no more of a label than that it is a name followed by `:`.
DESIGN CHOICE (log 15): the name is any text before the line's first `:`, blanks at its ends removed,
even an empty one or one with blanks inside, and a line defines one label at most. -/
def parseLine (text : String) : Line :=
  let t := beforeComment text.toList
  if t.contains ':' then
    parseBody (some (trim (t.takeWhile (· != ':')))) ((t.dropWhile (· != ':')).drop 1)
  else parseBody none t

/-- The bytes a line emits (30 R101): none for an empty line or `.org`, 2 for an instruction. -/
def Line.size (l : Line) : Nat :=
  if l.head.isEmpty || l.head == ".org".toList then 0
  else if l.head == ".byte".toList then l.operands.length
  else if l.head == ".word".toList then 2 * l.operands.length
  else Config.insnBytes

/-- The address after a line at address `a`; `.org` sets it (30 R101). The rules bound no address.
DESIGN CHOICE (log 15): every address is accepted, odd ones and those outside 0x200 to 0xFFF too. -/
def Line.next (l : Line) (a : Nat) : Option Nat :=
  if l.head == ".org".toList then
    match l.operands with
    | [t] => number t
    | _ => none
  else some (a + l.size)

/-- All the values of a list, or none. -/
def allOf {α : Type} : List (Option α) → Option (List α)
  | [] => some []
  | none :: _ => none
  | some x :: xs => (allOf xs).map (x :: ·)

/-- The bytes of a line, once the labels are known; none rejects the line. 30 R100 gives ranges for
`nnn`, `kk` and `n` only, and R101 none for the directives. DESIGN CHOICE (log 15): a `.byte` value
above 255 or a `.word` value above 0xFFFF rejects the line, and either directive without an operand
emits nothing. -/
def Line.emit (ls : Labels) (l : Line) : Option (List Byte) :=
  if l.head.isEmpty || l.head == ".org".toList then some []
  else if l.head == ".byte".toList then allOf (l.operands.map (field 8 ls))
  else if l.head == ".word".toList then
    (allOf (l.operands.map (field 16 ls))).map fun ws => (ws.map bytesOfWord).flatten
  else
    (mnemonics.find? (fun m => m.1.toList == l.head)).bind fun m =>
      (m.2.build ls l.operands).map fun i => bytesOfWord (encode i)

/-! ## Programs -/

/-- The addresses of the labels, the first line standing at `a`. -/
def labelsFrom : Nat → List Line → Option Labels
  | _, [] => some []
  | a, l :: rest =>
    (l.next a).bind fun a' => (labelsFrom a' rest).map fun ls =>
      match l.label with
      | some name => (name, a) :: ls
      | none => ls

/-- Bytes at ascending addresses. -/
def cellsFrom : Nat → List Byte → List Host.Cell
  | _, [] => []
  | a, b :: bs => (a, b) :: cellsFrom (a + 1) bs

/-- The cells the lines emit, the first line standing at `a`. -/
def emitFrom (ls : Labels) : Nat → List Line → Option (List Host.Cell)
  | _, [] => some []
  | a, l :: rest =>
    (l.emit ls).bind fun bs => (l.next a).bind fun a' =>
      (emitFrom ls a' rest).map fun cs => cellsFrom a bs ++ cs

/-- A program's cells, in the order they are emitted. It starts at 0x200 (30 R101). DESIGN CHOICE
(log 15): a rejected line rejects the program, and an address emitted twice is listed twice. -/
def assemble (source : List String) : Option (List Host.Cell) :=
  let lines := source.map parseLine
  (labelsFrom Config.progBase lines).bind fun ls => emitFrom ls Config.progBase lines

end Sys2Proof.Asm
end

