-- ==== Sys2Proof/Tests/Slice0.lean ====
section
/-! SUPPORT. The tests of the model, and the witnesses that the hypotheses of the statements can be
met. Expected results are the vectors of spec/95 (its section, or S<n>, P<n>, is named), or hand
calculation from the rule named; only `test_assemble_choices` and the lower-case digit show choices of
the model (log 15).
-/

namespace Sys2Proof.Tests

open Sys2Proof.Machine Sys2Proof.Safety Sys2Proof.Claim

/-! ## Helpers -/

/-- A next state of which `p` holds. -/
def holds (o : Host.Outcome State Fault Refusal) (p : State → Bool) : Bool :=
  match o with
  | .next t => p t
  | .fault _ => false
  | .refused _ => false

theorem next_of_holds {o : Host.Outcome State Fault Refusal} {p : State → Bool}
    (h : holds o p = true) : ∃ t, o = .next t ∧ p t = true := by
  cases o with
  | next t => exact ⟨t, rfl, h⟩
  | fault _ => cases h
  | refused _ => cases h

/-- The reset state with registers set. -/
def regs (l : List (Reg × Byte)) : State :=
  l.foldl (fun s p => s.writeReg p.1 (p.2.toNat : Int)) State.reset

/-- A state with bytes stored. -/
def stored (s : State) (a : Nat) (bs : List Byte) : State := s.storeBytes a bs

/-- A state with one byte of the grid set. -/
def lit (s : State) (r c : Nat) (b : Byte) : State :=
  { s with fb := Framebuffer.setByte s.fb (rowOf r) (colOf c) b }

/-- One `Step()` on the word placed at pc (95 part 2). -/
def run (op : Word) (s : State) : Host.Outcome State Fault Refusal := interpret (s.placeWord op)

/-- `p` of the next state, whose step result is `Ok`. -/
def ok (op : Word) (s : State) (p : State → Bool) : Bool :=
  holds (run op s) fun t => t.status.result == .ok && p t

/-- `p` of the next state, whose step result is the recoverable error. -/
def reports (op : Word) (s : State) (c : BitVec 4) (p : State → Bool) : Bool :=
  holds (run op s) fun t => t.status.result == .recoverable c op && p t

/-- `p` of the next state, whose step result is the fatal error. -/
def raises (op : Word) (s : State) (c : BitVec 4) (p : State → Bool) : Bool :=
  holds (run op s) fun t => t.status.result == .fatal c op && p t

/-- Bytes of memory from an address on. -/
def bytesAt (t : State) (a n : Nat) : List Byte := Memory.readBytes t.mem a n

/-- The bytes of the grid that are not zero, as (row, byte column, byte). -/
def litBytes (t : State) : List (Nat × Nat × Byte) :=
  (List.range Config.fbHeight).flatMap fun r => (List.range Config.fbWb).filterMap fun c =>
    let b := Framebuffer.byte t.fb (rowOf r) (colOf c)
    if b = 0 then none else some (r, c, b)

/-! ## Configuration -/

theorem test_config_valid : Config.Valid := by decide

theorem test_widths_agree : Config.WidthsAgree := ⟨rfl, rfl, rfl, rfl, rfl⟩

/-- 00 R5: the fields of State have the widths of the parameters. -/
theorem test_state_widths (s : State) :
    (∃ w : BitVec Config.pcBits, w = s.pc) ∧ (∃ w : BitVec Config.iBits, w = s.i) ∧
    (∃ w : Vector (BitVec Config.regBits) Config.nRegs, w = s.v) ∧
    (∃ w : Vector (BitVec Config.stackWidth) Config.stackDepth, w = s.stack) ∧
    (∃ w : BitVec Config.timerBits, w = s.dt) ∧ (∃ w : BitVec Config.timerBits, w = s.st) :=
  ⟨⟨_, rfl⟩, ⟨_, rfl⟩, ⟨_, rfl⟩, ⟨_, rfl⟩, ⟨_, rfl⟩, ⟨_, rfl⟩⟩

theorem test_load_max : Config.loadMax = 3584 := by decide

/-- 10 R35, R36: glyph 3 at 0x00F and glyph A at 0x032. -/
theorem test_font_glyphs :
    bytesAt State.reset 0x00F 5 = [0xF0, 0x10, 0xF0, 0x10, 0xF0] ∧
    bytesAt State.reset 0x032 5 = [0xF0, 0x90, 0xF0, 0x90, 0x90] := by decide

/-- 10 R36: the last glyph, and the first byte after the font. -/
theorem test_font_end : bytesAt State.reset 0x04B 6 = [0xF0, 0x80, 0xF0, 0x80, 0x80, 0x00] := by
  decide

/-! ## Well-formedness: ill-formed (non-canonical) terms are refused -/

theorem test_wellformed_refuses :
    Instr.canonical (.clearScreen 3) = false ∧ Instr.canonical (.retFromSub 7) = false ∧
    Instr.canonical (.skipEqReg 1 2 7) = false ∧ Instr.canonical (.skipNeReg 1 2 15) = false ∧
    Instr.canonical (.shr 0 1) = false ∧ Instr.canonical (.shl 0 1) = false := by decide

theorem test_wellformed_accepts :
    Instr.canonical (.clearScreen 0) = true ∧ Instr.canonical (.skipEqReg 1 2 0) = true ∧
    Instr.canonical (.shr 15 0) = true ∧ Instr.canonical (.add 1 2) = true := by decide

/-! ## Decoding: words written out bit by bit from 30 R95 (`t`, `x`, `y`, `n`) -/

theorem test_decode_control :
    decode (0b0000#4 ++ 0b0011#4 ++ 0b1110#4 ++ 0b0000#4) = .instr (.clearScreen 3) ∧
    decode (0b0000#4 ++ 0b0000#4 ++ 0b1110#4 ++ 0b1110#4) = .instr (.retFromSub 0) ∧
    decode (0b0001#4 ++ 0b0010#4 ++ 0b0011#4 ++ 0b0100#4) = .instr (.jmp 0x234) ∧
    decode (0b0010#4 ++ 0b1010#4 ++ 0b1011#4 ++ 0b1100#4) = .instr (.jsr 0xABC) ∧
    decode (0b1011#4 ++ 0b0001#4 ++ 0b1111#4 ++ 0b1110#4) = .instr (.jmpV0 0x1FE) := by decide

theorem test_decode_skips :
    decode (0b0011#4 ++ 0b0011#4 ++ 0b0010#4 ++ 0b1010#4) = .instr (.skipEqImm 3 0x2A) ∧
    decode (0b0100#4 ++ 0b0011#4 ++ 0b0010#4 ++ 0b1010#4) = .instr (.skipNeImm 3 0x2A) ∧
    decode (0b0101#4 ++ 0b0001#4 ++ 0b0010#4 ++ 0b0111#4) = .instr (.skipEqReg 1 2 7) ∧
    decode (0b1001#4 ++ 0b0001#4 ++ 0b0010#4 ++ 0b1111#4) = .instr (.skipNeReg 1 2 15) := by
  decide

theorem test_decode_registers :
    decode (0b0110#4 ++ 0b1111#4 ++ 0b0000#4 ++ 0b0111#4) = .instr (.movImm 15 0x07) ∧
    decode (0b0111#4 ++ 0b0010#4 ++ 0b1111#4 ++ 0b1111#4) = .instr (.addImm 2 0xFF) ∧
    decode (0b1100#4 ++ 0b0011#4 ++ 0b0001#4 ++ 0b0000#4) = .instr (.rand 3 0x10) ∧
    decode (0b1000#4 ++ 0b0001#4 ++ 0b0010#4 ++ 0b0000#4) = .instr (.mov 1 2) ∧
    decode (0b1000#4 ++ 0b0001#4 ++ 0b0010#4 ++ 0b0001#4) = .instr (.orReg 1 2) ∧
    decode (0b1000#4 ++ 0b0001#4 ++ 0b0010#4 ++ 0b0010#4) = .instr (.andReg 1 2) ∧
    decode (0b1000#4 ++ 0b0001#4 ++ 0b0010#4 ++ 0b0011#4) = .instr (.xorReg 1 2) := by decide

theorem test_decode_flag_writers :
    decode (0b1000#4 ++ 0b0001#4 ++ 0b0010#4 ++ 0b0100#4) = .instr (.add 1 2) ∧
    decode (0b1000#4 ++ 0b0001#4 ++ 0b0010#4 ++ 0b0101#4) = .instr (.sub 1 2) ∧
    decode (0b1000#4 ++ 0b0001#4 ++ 0b0010#4 ++ 0b0110#4) = .instr (.shr 1 2) ∧
    decode (0b1000#4 ++ 0b0001#4 ++ 0b0010#4 ++ 0b0111#4) = .instr (.subn 1 2) ∧
    decode (0b1000#4 ++ 0b0001#4 ++ 0b0010#4 ++ 0b1110#4) = .instr (.shl 1 2) := by decide

theorem test_decode_index_and_display :
    decode (0b1010#4 ++ 0b0011#4 ++ 0b0000#4 ++ 0b0001#4) = .instr (.movIndex 0x301) ∧
    decode (0b1111#4 ++ 0b0010#4 ++ 0b0001#4 ++ 0b1110#4) = .instr (.addIndex 2) ∧
    decode (0b1111#4 ++ 0b0010#4 ++ 0b0010#4 ++ 0b1001#4) = .instr (.fontIndex 2) ∧
    decode (0b1111#4 ++ 0b0010#4 ++ 0b0011#4 ++ 0b0011#4) = .instr (.storeBcd 2) ∧
    decode (0b1111#4 ++ 0b0010#4 ++ 0b0101#4 ++ 0b0101#4) = .instr (.storeRegs 2) ∧
    decode (0b1111#4 ++ 0b0010#4 ++ 0b0110#4 ++ 0b0101#4) = .instr (.loadRegs 2) ∧
    decode (0b1101#4 ++ 0b0001#4 ++ 0b0010#4 ++ 0b0101#4) = .instr (.draw 1 2 5) := by decide

theorem test_decode_keys_and_timers :
    decode (0b1110#4 ++ 0b0010#4 ++ 0b1001#4 ++ 0b1110#4) = .instr (.skipKeyPressed 2) ∧
    decode (0b1110#4 ++ 0b0010#4 ++ 0b1010#4 ++ 0b0001#4) = .instr (.skipKeyNotPressed 2) ∧
    decode (0b1111#4 ++ 0b0100#4 ++ 0b0000#4 ++ 0b0111#4) = .instr (.getDelay 4) ∧
    decode (0b1111#4 ++ 0b0100#4 ++ 0b0000#4 ++ 0b1010#4) = .instr (.waitKey 4) ∧
    decode (0b1111#4 ++ 0b0100#4 ++ 0b0001#4 ++ 0b0101#4) = .instr (.setDelay 4) ∧
    decode (0b1111#4 ++ 0b0100#4 ++ 0b0001#4 ++ 0b1000#4) = .instr (.setSound 4) := by decide

/-- 95 2.1: the samples of the four invalid classes. -/
theorem test_decode_invalid :
    ([0x0000, 0x00E1, 0x00EF, 0x0123, 0x00FF, 0x0E00, 0x8008, 0x8129, 0x812F, 0x8FFD, 0xE000,
      0xE19F, 0xE1A0, 0xE09D, 0xEFFF, 0xF000, 0xF1FF, 0xF108, 0xF175, 0xF185, 0xF230] :
        List Word).all (fun op => (decode op).toInstr? == none) = true := by decide

/-- 20 R60, 30 R90: two bytes, the high one first; one byte alone is no instruction. -/
theorem test_decode_bytes :
    decodeBytes [0x12, 0x34, 0x56] = (.instr (.jmp 0x234), [0x56]) ∧
    decodeBytes [0x12] = (.invalid .truncated, [0x12]) := by decide

theorem test_decode_table_word :
    decodeTableWord 16 0x8125 = some (.sub 1 2) ∧ decodeTableWord 16 0x8128 = none := by decide

/-! ## The step (95 2.1) -/

/-- `6011` at 0xFFE: pc is left at 0x1000. -/
theorem test_step_last_address :
    ok 0x6011 { State.reset with pc := 0xFFE } (fun t => t.reg 0 == 0x11 && t.pc == 0x1000) = true :=
  by decide

theorem test_step_fetch_faults :
    holds (interpret { State.reset with pc := 0xFFF }) (fun t =>
      t.status.result == .fatal 7 0x0FFF && t.pc == 0xFFF && t.status.seen == 0x080) = true ∧
    holds (interpret { State.reset with pc := 0x10FE }) (fun t =>
      t.status.result == .fatal 7 0x10FE && t.pc == 0x10FE) = true := by decide

theorem test_step_invalid_words :
    reports 0x0000 State.reset 1 (fun t => t.pc == 0x202 && t.status.seen == 0x002) = true ∧
    reports 0xFFFF State.reset 1 (fun t => t.pc == 0x202 && !t.status.halted) = true := by decide

/-- 95 2.1: the report of the step before is gone after a silent one; its bit stays. -/
theorem test_step_clears_cause :
    ok 0x6000 (State.reset.takeError .decodeError 0xFFFF)
      (fun t => t.status.cause == 0 && t.status.info == 0 && t.status.seen == 0x002) = true := by
  decide

theorem test_step_halted :
    stepResult (State.reset.takeError .stackOverflow 0x2200) = some .halted := by decide

/-- 70 R303: with nothing loaded the first step reports the word 0x0000. -/
theorem test_step_empty_machine :
    stepResult State.reset = some (.recoverable 1 0x0000) := by decide

/-- The fixed names are tied together (spec 40 R120). -/
theorem test_core_step : Sys2Proof.core.step State.reset = step State.reset := rfl

/-! ## Control transfer (95 2.2) -/

theorem test_jmp :
    ok 0x1203 State.reset (fun t => t.pc == 0x203) = true ∧
    ok 0x1FFF State.reset (fun t => t.pc == 0xFFF) = true := by decide

theorem test_jsr :
    ok 0x2ABC { State.reset with pc := 0xFFE }
      (fun t => t.stack[0] == 0x1000 && t.sp == 1 && t.pc == 0xABC) = true ∧
    ok 0x2300 { State.reset with sp := 15 }
      (fun t => t.stack[15] == 0x202 && t.sp == 16 && t.pc == 0x300) = true := by decide

theorem test_jsr_overflow :
    raises 0x2300 { State.reset with sp := 16 } 3
      (fun t => t.pc == 0x202 && t.sp == 16 && t.status.halted) = true := by decide

theorem test_ret :
    ok 0x07EE { State.reset with pc := 0x300, sp := 2, stack := State.reset.stack.set 1 0x456 }
      (fun t => t.sp == 1 && t.pc == 0x456 && t.stack[1] == 0x456) = true := by decide

theorem test_ret_underflow :
    raises 0x00EE { State.reset with pc := 0x300 } 4
      (fun t => t.pc == 0x302 && t.sp == 0 && t.status.seen == 0x010) = true := by decide

theorem test_jmp_v0 :
    ok 0xBFFF (regs [(0, 0xFF)]) (fun t => t.pc == 0x10FE && t.reg vf == 0) = true ∧
    ok 0xB1FE (regs [(0, 0x02), (1, 0x80)]) (fun t => t.pc == 0x200) = true := by decide

theorem test_skip_eq_imm :
    ok 0x332A (regs [(3, 0x2A)]) (fun t => t.pc == 0x204) = true ∧
    ok 0x332A (regs [(3, 0x2B)]) (fun t => t.pc == 0x202) = true := by decide

theorem test_skip_ne_imm :
    ok 0x432A (regs [(3, 0x2B)]) (fun t => t.pc == 0x204) = true ∧
    ok 0x432A (regs [(3, 0x2A)]) (fun t => t.pc == 0x202) = true := by decide

theorem test_skip_eq_reg :
    ok 0x5127 (regs [(1, 7), (2, 7)]) (fun t => t.pc == 0x204) = true ∧
    ok 0x5120 (regs [(1, 7), (2, 8)]) (fun t => t.pc == 0x202) = true := by decide

theorem test_skip_ne_reg :
    ok 0x912F (regs [(1, 7), (2, 8)]) (fun t => t.pc == 0x204) = true ∧
    ok 0x9110 (regs [(1, 7)]) (fun t => t.pc == 0x202) = true := by decide

/-! ## Registers and the ALU (95 2.3) -/

/-- S1: 0x100, -1 and 510 written. -/
theorem test_register_write :
    (State.reset.writeReg 3 0x100).reg 3 = 0 ∧ (State.reset.writeReg 3 0x100).ovf = true ∧
    (State.reset.writeReg 3 (-1)).reg 3 = 0xFF ∧ (State.reset.writeReg 3 (-1)).ovf = true ∧
    (State.reset.writeReg 3 510).reg 3 = 0xFE ∧ (State.reset.writeReg 3 255).ovf = false := by
  decide

theorem test_mov_imm : ok 0x6F07 State.reset (fun t => t.reg vf == 7) = true := by decide

theorem test_add_imm :
    ok 0x7205 (regs [(2, 0xFE)]) (fun t => t.reg 2 == 3 && t.reg vf == 0 && t.ovf) = true ∧
    ok 0x7F01 (regs [(15, 0xFF)]) (fun t => t.reg vf == 0 && t.ovf) = true := by decide

theorem test_mov :
    ok 0x8F10 (regs [(1, 0x9C)]) (fun t => t.reg vf == 0x9C && t.reg 1 == 0x9C) = true := by decide

theorem test_or :
    ok 0x8011 (regs [(0, 0x0F), (1, 0xF0), (15, 1)])
      (fun t => t.reg 0 == 0xFF && t.reg vf == 1) = true := by decide

theorem test_and :
    ok 0x8012 (regs [(0, 0x3C), (1, 0x0F), (15, 1)])
      (fun t => t.reg 0 == 0x0C && t.reg vf == 1) = true := by decide

theorem test_xor :
    ok 0x8013 (regs [(0, 0xFF), (1, 0x0F), (15, 1)])
      (fun t => t.reg 0 == 0xF0 && t.reg vf == 1) = true := by decide

theorem test_add :
    ok 0x8014 (regs [(0, 0xFF), (1, 1)])
      (fun t => t.reg 0 == 0 && t.reg vf == 1 && !t.ovf) = true ∧
    ok 0x80F4 (regs [(0, 5), (15, 1)]) (fun t => t.reg 0 == 6 && t.reg vf == 0) = true := by decide

/-- The flag wins when `x` is 15. -/
theorem test_add_vf :
    ok 0x8F14 (regs [(15, 0), (1, 1)]) (fun t => t.reg vf == 0) = true ∧
    ok 0x8F14 (regs [(15, 1), (1, 0xFF)]) (fun t => t.reg vf == 1) = true := by decide

theorem test_sub :
    ok 0x8015 (regs [(0, 1), (1, 2)]) (fun t => t.reg 0 == 0xFF && t.reg vf == 0) = true ∧
    ok 0x8015 (regs [(0, 7), (1, 7)]) (fun t => t.reg 0 == 0 && t.reg vf == 1) = true := by decide

theorem test_sub_vf : ok 0x80F5 (regs [(0, 5), (15, 1)])
    (fun t => t.reg 0 == 4 && t.reg vf == 1) = true := by decide

theorem test_shr :
    ok 0x8016 (regs [(0, 6), (1, 0xAB), (15, 1)])
      (fun t => t.reg 0 == 3 && t.reg 1 == 0xAB && t.reg vf == 0) = true ∧
    ok 0x8F06 (regs [(15, 2)]) (fun t => t.reg vf == 0) = true := by decide

theorem test_subn :
    ok 0x8017 (regs [(0, 5), (1, 3)]) (fun t => t.reg 0 == 0xFE && t.reg vf == 0) = true ∧
    ok 0x8F17 (regs [(15, 1), (1, 0)]) (fun t => t.reg vf == 0) = true := by decide

theorem test_shl :
    ok 0x801E (regs [(0, 0x81), (1, 0xFF)]) (fun t => t.reg 0 == 2 && t.reg vf == 1) = true ∧
    ok 0x8F0E (regs [(15, 0x80)]) (fun t => t.reg vf == 1) = true := by decide

/-- With the bound 0 the only draw is 0. -/
theorem test_rand :
    (∃ t, run 0xC300 (regs [(3, 0xEE), (15, 1)]) = .next t ∧ t.reg 3 = 0 ∧ t.reg vf = 1) := by
  refine ⟨_, rfl, ?_, rfl⟩
  have h : ∀ k : Fin ((0 : Byte).toNat + 1), BitVec.ofInt 8 (k.val : Int) = 0#8 := by decide
  exact h _

/-! ## Index register and memory (95 2.4) -/

theorem test_mov_index : ok 0xAFFF State.reset (fun t => t.i == 0x0FFF) = true := by decide

theorem test_add_index :
    ok 0xF21E { regs [(2, 0xFF)] with i := 0xFFFF }
      (fun t => t.i == 0x00FE && t.reg vf == 0) = true ∧
    ok 0xF21E { regs [(2, 1)] with i := 0x0FFF } (fun t => t.i == 0x1000) = true := by decide

theorem test_font_index :
    ok 0xF129 (regs [(1, 0x0F)]) (fun t => t.i == 0x004B) = true := by decide

theorem test_font_index_error :
    reports 0xF129 { regs [(1, 0x10)] with i := 0x300 } 5
      (fun t => t.i == 0x300 && t.status.seen == 0x020 && !t.status.halted) = true := by decide

/-- S6, and the last legal base. -/
theorem test_store_bcd :
    ok 0xF033 { regs [(0, 0xD7)] with i := 0x300 }
      (fun t => bytesAt t 0x300 4 == [2, 1, 5, 0] && t.i == 0x300) = true ∧
    ok 0xF033 { regs [(0, 0x7B)] with i := 0xFFD }
      (fun t => bytesAt t 0xFFD 3 == [1, 2, 3]) = true := by decide

theorem test_store_bcd_errors :
    raises 0xF033 { regs [(0, 0x7B)] with i := 0xFFE } 7
      (fun t => bytesAt t 0xFFE 2 == [0, 0] && t.pc == 0x202) = true ∧
    raises 0xF033 { regs [(0, 0x7B)] with i := 0x1FF } 8
      (fun t => bytesAt t 0x1FF 3 == [0, 0xF0, 0x33]) = true := by decide

theorem test_store_regs :
    ok 0xF255 { regs [(0, 1), (1, 2), (2, 3), (3, 4)] with i := 0x300 }
      (fun t => bytesAt t 0x300 4 == [1, 2, 3, 0] && t.i == 0x300) = true := by decide

theorem test_store_regs_errors :
    raises 0xFF55 { regs [(0, 0xA0)] with i := 0xFF1 } 7
      (fun t => bytesAt t 0xFF1 1 == [0]) = true ∧
    raises 0xFF55 { regs [(0, 0xA0)] with i := 0x1F8 } 8
      (fun t => bytesAt t 0x1F8 1 == [0] && bytesAt t 0x200 2 == [0xFF, 0x55]) = true := by decide

theorem test_load_regs :
    ok 0xF265 (stored { regs [(0, 9), (3, 9)] with i := 0x300 } 0x300 [2, 1, 5, 7])
      (fun t => t.reg 0 == 2 && t.reg 1 == 1 && t.reg 2 == 5 && t.reg 3 == 9) = true ∧
    ok 0xF465 State.reset (fun t => t.reg 0 == 0xF0 && t.reg 3 == 0x90 && t.reg 4 == 0xF0) = true :=
  by decide

theorem test_load_regs_error :
    raises 0xF165 (stored { regs [(0, 9), (1, 9)] with i := 0xFFF } 0xFFF [0x77]) 7
      (fun t => t.reg 0 == 9 && t.reg 1 == 9) = true := by decide

/-! ## Framebuffer (95 2.5) -/

theorem test_clear_screen :
    ok 0x03E0 (lit (lit { regs [(15, 1)] with collision := true } 0 0 0x80) 31 7 1)
      (fun t => litBytes t == [] && t.reg vf == 1 && t.collision && t.drawDone == 0) = true := by
  decide

/-- Column 63, row 31 (reduced from 255, 255), wrapping both ways. -/
theorem test_draw_wraps :
    ok 0xD011 (stored { regs [(0, 255), (1, 255)] with i := 0x300 } 0x300 [0xFF])
      (fun t => litBytes t == [(31, 0, 0xFE), (31, 7, 1)] && t.reg vf == 0 && t.drawDone == 1) =
        true := by decide

/-- The old VF is a coordinate and is then overwritten with the flag. -/
theorem test_draw_vf :
    ok 0xDF11 (stored { regs [(15, 1), (1, 2)] with i := 0x300 } 0x300 [0x80])
      (fun t => litBytes t == [(2, 0, 0x40)] && t.reg vf == 0) = true := by decide

/-- A collision in the right neighbour byte only. -/
theorem test_draw_collision :
    ok 0xD011 (stored { lit (regs [(0, 7)]) 0 1 0x80 with i := 0x300 } 0x300 [0xC0])
      (fun t => litBytes t == [(0, 0, 1)] && t.reg vf == 1 && t.collision) = true := by decide

/-- `D010` reads nothing and cannot fault; `D013` beyond 0xFFF changes nothing. -/
theorem test_draw_range :
    ok 0xD010 { lit (regs [(15, 1)]) 0 0 0x80 with i := 0xFFFF }
      (fun t => litBytes t == [(0, 0, 0x80)] && t.reg vf == 0 && t.drawDone == 1) = true ∧
    raises 0xD013 { lit (regs [(15, 5)]) 0 0 0x80 with i := 0xFFE } 7
      (fun t => litBytes t == [(0, 0, 0x80)] && t.reg vf == 5 && t.drawDone == 0) = true := by
  decide

/-! ## Keys and timers (95 2.6) -/

theorem test_key_index_errors :
    reports 0xE29E (regs [(2, 0x10)]) 9 (fun t => t.pc == 0x202 && t.status.seen == 0x200) = true ∧
    reports 0xE2A1 (regs [(2, 0xFF)]) 9 (fun t => t.pc == 0x202) = true := by decide

/-- The state the two key skips below are executed on. -/
def keyState (op : Word) : State := ((regs [(2, 5)]).placeWord op).advance

/-- The two skips go opposite ways on one key state, whichever it is. -/
theorem test_key_skips :
    ∃ t u, run 0xE29E (regs [(2, 5)]) = .next t ∧ run 0xE2A1 (regs [(2, 5)]) = .next u ∧
      (t.pc = 0x204 ∧ u.pc = 0x202 ∨ t.pc = 0x202 ∧ u.pc = 0x204) := by
  have h : ∀ b : Bool,
      ((keyState 0xE29E).skipIf b).pc = 0x204 ∧ ((keyState 0xE2A1).skipIf (!b)).pc = 0x202 ∨
      ((keyState 0xE29E).skipIf b).pc = 0x202 ∧ ((keyState 0xE2A1).skipIf (!b)).pc = 0x204 := by
    decide
  exact ⟨_, _, rfl, rfl, h (Config.keyPressed 1 5)⟩

theorem test_wait_key :
    ((regs [(3, 9)]).acceptKey 3 (some 7)).reg 3 = 7 ∧
    ({ regs [(3, 9)] with pc := 0x202 }).acceptKey 3 none = { regs [(3, 9)] with pc := 0x200 } := by
  decide

theorem test_get_delay :
    ok 0xF407 { regs [(4, 9)] with dt := 0x2A, st := 7 }
      (fun t => t.reg 4 == 0x2A && t.dt == 0x2A) = true := by decide

theorem test_set_delay :
    ok 0xF415 { regs [(4, 0xFF)] with dt := 1, st := 5 }
      (fun t => t.dt == 0xFF && t.st == 5) = true := by decide

theorem test_set_sound :
    ok 0xF418 { regs [(4, 0x0A)] with dt := 3 }
      (fun t => t.st == 0x0A && t.stActive && t.dt == 3) = true := by decide

/-- S8: six ticks take 6 to 0, a seventh changes nothing. -/
theorem test_ticks :
    tickMany 5 6 = 1 ∧ tickMany 6 6 = 0 ∧ tickMany 7 6 = 0 ∧ running 0 = false := by decide

/-! ## The host's side -/

theorem test_load_refused :
    (State.reset.load (List.replicate 3585 1)).1 = .loadOverflow := by
  rw [State.load, if_pos (by rw [List.length_replicate]; decide)]

theorem test_load :
    bytesAt (State.reset.load [0x60, 0x05, 0xA3]).2 0x200 4 = [0x60, 0x05, 0xA3, 0] := by decide

/-- 60 R288: the word at 0x200 of a loaded image. -/
theorem test_memory_dump :
    (State.reset.load [0x60, 0x05, 0xA3]).2.memoryDump[0x100]? = some (0x200, 0x6005) := by
  rw [State.memoryDump, List.getElem?_map, List.getElem?_range (by decide)]
  decide

/-- P1 in the notation of 30 R100: the bytes 60 05 A3 00 F0 55 00 E0. -/
theorem test_assemble :
    Asm.assemble ["start: mov_imm V0, 5 ; five", "mov_index 0x300", "store_regs V0",
      "clear_screen"] =
      some [(0x200, 0x60), (0x201, 0x05), (0x202, 0xA3), (0x203, 0x00), (0x204, 0xF0),
            (0x205, 0x55), (0x206, 0x00), (0x207, 0xE0)] := by decide

/-- A label used before it is defined, directives, and a two-operand shift. -/
theorem test_assemble_labels :
    Asm.assemble ["jmp here", ".org 0x204", ".byte 255, 1", "here: shr V1, V2"] =
      some [(0x200, 0x12), (0x201, 0x06), (0x204, 0xFF), (0x205, 0x01), (0x206, 0x81),
            (0x207, 0x26)] := by decide

/-- 30 R100: digits of either case, and one that is none. -/
theorem test_assemble_digits :
    Asm.hexDigit '9' = some 9 ∧ Asm.hexDigit 'A' = some 10 ∧ Asm.hexDigit 'f' = some 15 ∧
    Asm.hexDigit 'G' = none := by decide

/-- The model's choices of log 15: the ranges of the directives, no operand, an address below 0x200,
an empty label. -/
theorem test_assemble_choices :
    Asm.assemble [".byte 256"] = none ∧ Asm.assemble [".word 65536"] = none ∧
    Asm.assemble [".byte"] = some [] ∧
    Asm.assemble [".org 0x100", ": .word 0xFFFF"] = some [(0x100, 0xFF), (0x101, 0xFF)] := by decide

theorem test_assemble_rejects :
    Asm.assemble ["mov_imm V0, 256"] = none ∧ Asm.assemble ["nop"] = none := by decide

/-! ## Witnesses: the hypotheses of each statement can be met, at the boundary of each clause -/

/-- The reset state with an error of a cause taken: a halted core, for a fatal cause. -/
def after (c : Cause) : State := State.reset.takeError c 0x1234

/-- The reset state with a word at its pc. -/
def at200 (op : Word) : State := State.reset.placeWord op

/-- Two words that decode, and one that does not. -/
theorem witness_EncodeOfDecode : decode 0x5127 = .instr (.skipEqReg 1 2 7) := by decide

theorem witness_DecoderFollowsTheOpcodeTable :
    decode 0xFF65 = .instr (.loadRegs 15) ∧
    (⟨0xF0FF, 0xF065⟩ : OpcodeRow) ∈ opcodeTable ∧
    OpcodeRow.hits ⟨0xF0FF, 0xF065⟩ 0xFF65 = true := by decide

/-- The four clauses of the cycle: halted; pc just out of range; the last pc in range, with an
invalid word and with a valid one. -/
theorem witness_InterpreterCycle :
    (after .stackOverflow).status.halted = true ∧
    (let s := { State.reset with pc := 0xFFF }
     s.status.halted = false ∧ 0xFFF < s.pc.toNat + 1) ∧
    (let s := { State.reset with pc := 0xFFE }
     s.status.halted = false ∧ s.pc.toNat + 1 ≤ 0xFFF ∧
     decode (Memory.read s.mem s.pc.toNat ++ Memory.read s.mem (s.pc.toNat + 1)) =
       .invalid .zeroFamily) ∧
    (let s := ({ State.reset with pc := 0xFFE }).placeWord 0x6011
     s.status.halted = false ∧ s.pc.toNat + 1 ≤ 0xFFF ∧
     decode (Memory.read s.mem s.pc.toNat ++ Memory.read s.mem (s.pc.toNat + 1)) =
       .instr (.movImm 0 0x11)) := by decide

theorem witness_StepRunsTheDecodedInstruction :
    let s := at200 0x8125
    s.status.halted = false ∧ s.pc.toNat + 1 ≤ 0xFFF ∧
    decode (Memory.read s.mem s.pc.toNat ++ Memory.read s.mem (s.pc.toNat + 1)) =
      .instr (.sub 1 2) := by decide

theorem witness_OnlyResetLeavesHalted :
    (after .memoryRangeFault).status.halted = true ∧
    (∃ t, act (.load [1]) (after .memoryRangeFault) = .next t) ∧
    (∃ t, act .reset (after .memoryRangeFault) = .next t) := ⟨by decide, ⟨_, rfl⟩, ⟨_, rfl⟩⟩

/-- A silent step, a report and a fatal error. -/
theorem witness_StepLeavesOneOfThreeStatuses :
    (∃ t, interpret (at200 0x6005) = .next t ∧ (t.status.cause == 0) = true) ∧
    (∃ t, interpret (at200 0xFFFF) = .next t ∧ (t.status.cause == 1) = true) ∧
    (∃ t, interpret (at200 0x00EE) = .next t ∧ (t.status.cause == 4) = true) :=
  ⟨next_of_holds (by decide), next_of_holds (by decide), next_of_holds (by decide)⟩

/-- A fetch fault at the first pc out of range, and an error at the last one in range. -/
theorem witness_ErrorsArePrecise :
    (∃ t, interpret { State.reset with pc := 0xFFF } = .next t ∧
      decide (t.status.cause ≠ 0) = true) ∧
    (∃ t, interpret { State.reset with pc := 0xFFE } = .next t ∧
      decide (t.status.cause ≠ 0) = true) :=
  ⟨next_of_holds (by decide), next_of_holds (by decide)⟩

/-- Each cause that an instruction can report or raise, reported or raised. -/
theorem witness_OnlyListedCausesAreReported :
    holds (interpret (at200 0xFFFF)) (fun t => t.status.cause == 1) = true ∧
    holds (run 0x2300 { State.reset with sp := 16 }) (fun t => t.status.cause == 3) = true ∧
    holds (interpret (at200 0x00EE)) (fun t => t.status.cause == 4) = true ∧
    holds (run 0xF129 (regs [(1, 0x10)])) (fun t => t.status.cause == 5) = true ∧
    holds (run 0xE19E (regs [(1, 0x10)])) (fun t => t.status.cause == 9) = true ∧
    holds (run 0xE1A1 (regs [(1, 0x10)])) (fun t => t.status.cause == 9) = true ∧
    holds (run 0xD012 { State.reset with i := 0xFFF }) (fun t => t.status.cause == 7) = true ∧
    holds (run 0xF165 { State.reset with i := 0xFFF }) (fun t => t.status.cause == 7) = true ∧
    holds (run 0xF033 { State.reset with i := 0xFFE }) (fun t => t.status.cause == 7) = true ∧
    holds (run 0xF055 { State.reset with i := 0x1FF }) (fun t => t.status.cause == 8) = true := by
  decide

theorem witness_EveryLiveStepIsTaken : State.reset.status.halted = false := rfl

/-- 95 2.2: the word 1200 at 0x200. -/
theorem witness_FinishedCoreStaysFinished : (at200 0x1200).finished = true := by decide

/-- A step is taken from a state that meets both invariants and differs from reset: loaded, with a
return address stacked. -/
def invState : State :=
  { (State.reset.load [0x60, 0x05]).2 with sp := 1, stack := State.reset.stack.set 0 0x1000 }

theorem witness_invariants : Inv invState ∧ PcInv invState := by decide

theorem witness_StepKeepsMemoryAndStatusInvariant :
    Inv invState ∧ ∃ t, step invState = .next t := by
  refine ⟨witness_invariants.1, ?_⟩
  obtain ⟨t, h, -⟩ := exec_cases (.movImm 0 5) invState.passTime.advance
  exact ⟨t, h⟩

theorem witness_StepKeepsPcBounds : PcInv invState ∧ ∃ t, step invState = .next t :=
  ⟨witness_invariants.2, witness_StepKeepsMemoryAndStatusInvariant.2⟩

theorem witness_EveryInterleavingKeepsTheInvariants :
    Inv invState ∧ PcInv invState ∧
    ∃ t, actAll [.step, .tickDelay, .load [0x00, 0xE0], .tickSound, .step, .reset] invState =
      .next t ∧ decide (t.pc = 0x200) = true :=
  ⟨witness_invariants.1, witness_invariants.2, next_of_holds (by decide)⟩

/-- The highest address below 0x200, and a step that is taken. -/
theorem witness_NoStepWritesBelowProgBase : (∃ t, step invState = .next t) ∧ 0x1FF < 0x200 :=
  ⟨witness_StepKeepsMemoryAndStatusInvariant.2, by decide⟩

/-- Each component is changed by one of the instructions that may change it. -/
theorem witness_ComponentsAreWrittenOnlyByTheirInstructions :
    (let s := { regs [(0, 0xD7)] with i := 0x300 }
     holds (exec (.storeBcd 0) s) (fun t => t.mem != s.mem) = true) ∧
    (let s := { lit (regs [(0, 7)]) 0 0 0x01 with i := 0x000 }
     holds (exec (.draw 0 1 1) s) (fun t =>
       t.fb != s.fb && t.collision != s.collision && t.drawDone != s.drawDone) = true) ∧
    (holds (exec (.jsr 0x300) State.reset) (fun t =>
      t.stack != State.reset.stack && t.sp != State.reset.sp) = true) ∧
    (holds (exec (.movIndex 0x300) State.reset) (fun t => t.i != State.reset.i) = true) ∧
    (holds (exec (.setDelay 0) (regs [(0, 1)])) (fun t => t.dt != State.reset.dt) = true) ∧
    (holds (exec (.setSound 0) (regs [(0, 1)])) (fun t => t.st != State.reset.st) = true) := by
  decide

/-- VF changed by a flag, and a register loaded at the bound `x`. -/
theorem witness_RegistersChangeOnlyAsNamed :
    holds (exec (.add 0 1) (regs [(0, 0xFF), (1, 1)])) (fun t => t.reg vf != 0) = true ∧
    holds (exec (.loadRegs 3) State.reset) (fun t => t.reg 3 != 0) = true := by decide

theorem witness_PcMovesOnlyByTransfer :
    ∃ t, exec (.jmp 0x300) State.reset = .next t ∧ decide (t.pc ≠ State.reset.pc) = true :=
  next_of_holds (by decide)

/-- A return with one live return address, below a stale entry. -/
def liveState : State :=
  { at200 0x00EE with sp := 1, stack := (State.reset.stack.set 0 0x456).set 1 0x111 }

/-- Two states that differ in every hidden component and share one live return address, and a step
from the first that reads it. -/
theorem witness_HiddenStateIsNeverRead :
    AgreeOnVisible liveState
      { liveState with
        ovf := true, collision := true, st := 9, drawDone := 3,
        stack := liveState.stack.set 1 0x222 } ∧
    ∃ t, interpret liveState = .next t ∧ decide (t.pc = 0x456) = true :=
  ⟨⟨by decide, rfl⟩, next_of_holds (by decide)⟩

/-- The highest address, and one that holds the font. -/
theorem witness_MemoryReadsBackWhatWasWritten :
    Memory.wf [] ∧ 0xFFF < Config.memSize ∧ 0x000 < Config.memSize := by decide

/-- The last call that succeeds, and the first that does not. -/
theorem witness_CallPushesTheReturnAddress :
    ({ State.reset with sp := 15 }).sp.val < 16 ∧ ({ State.reset with sp := 16 }).sp.val = 16 := by
  decide

theorem witness_ReturnPopsTheNewestAddress :
    ({ State.reset with sp := 16 }).sp.val = (15 : Fin 16).val + 1 ∧ State.reset.sp.val = 0 := by
  decide

/-- Sixteen calls on an empty stack. -/
theorem witness_CallsAndReturnsAreLastInFirstOut :
    State.reset.sp.val + (List.replicate 16 ((0x202, 0x300) : Word × Addr)).length ≤ 16 := by
  decide

/-- The destination is not VF, in the clauses about the result. -/
theorem witness_flag_writers : (14 : Reg) ≠ vf := by decide

/-- The highest digit, and the first value that is none. -/
theorem witness_FontIndexAddressesTheGlyph :
    ((regs [(1, 0x0F)]).reg 1).toNat ≤ 15 ∧ 15 < ((regs [(1, 0x10)]).reg 1).toNat := by decide

/-- The lowest and the highest base at which the digits fit, and the first that is out of range on
either side; no base is both. -/
theorem witness_BcdDigitsAreStored :
    Memory.wf State.reset.mem ∧
    (0x200 ≤ ({ State.reset with i := 0x200 }).i.toNat ∧ 0x200 + 2 ≤ 0xFFF) ∧
    (0x200 ≤ ({ State.reset with i := 0xFFD }).i.toNat ∧ 0xFFD + 2 ≤ 0xFFF) ∧
    0xFFF < ({ State.reset with i := 0xFFE }).i.toNat + 2 ∧
    ({ State.reset with i := 0x1FF }).i.toNat < 0x200 ∧ ¬(0xFFF < 0x1FF + 2) := by decide

/-- The same for all sixteen registers. -/
theorem witness_RegisterBlockIsStored :
    Memory.wf State.reset.mem ∧
    (0x200 ≤ ({ State.reset with i := 0x200 }).i.toNat ∧ 0x200 + (15 : Reg).toNat ≤ 0xFFF) ∧
    (0x200 ≤ ({ State.reset with i := 0xFF0 }).i.toNat ∧ 0xFF0 + (15 : Reg).toNat ≤ 0xFFF) ∧
    0xFFF < ({ State.reset with i := 0xFF1 }).i.toNat + (15 : Reg).toNat ∧
    ({ State.reset with i := 0x1FF }).i.toNat < 0x200 ∧
    ∀ x : Reg, ¬(0xFFF < 0x1FF + x.toNat) := by decide

theorem witness_RegisterBlockIsLoaded :
    ({ State.reset with i := 0xFF0 }).i.toNat + (15 : Reg).toNat ≤ 0xFFF ∧
    0xFFF < ({ State.reset with i := 0xFF1 }).i.toNat + (15 : Reg).toNat := by decide

/-- A block of all sixteen registers stored at the last base that fits, and read back there. -/
theorem witness_StoredBlockLoadsBack :
    let s := { regs [(0, 1), (15, 2)] with i := 0xFF0 }
    Memory.wf s.mem ∧ s.status.cause = 0 ∧
    ∃ t, exec (.storeRegs 15) s = .next t ∧
      decide (t.status = s.status ∧ t.i = s.i) = true :=
  ⟨by decide, by decide, next_of_holds (by decide)⟩

/-- `V[0]` and `V[1]` hold the word 632A and are stored over the word at pc. -/
theorem witness_NextFetchSeesTheStore :
    let s := { regs [(0, 0x63), (1, 0x2A)] with i := 0x200 }
    Memory.wf s.mem ∧ 1 ≤ (1 : Reg).toNat ∧ 0x200 ≤ s.i.toNat ∧
    s.i.toNat + (1 : Reg).toNat ≤ 0xFFF ∧ s.pc = s.i ∧ s.status.halted = false ∧
    decode (s.reg 0 ++ s.reg 1) = .instr (.movImm 3 0x2A) ∧
    ∃ t, exec (.storeRegs 1) s = .next t :=
  ⟨by decide, by decide, by decide, by decide, by decide, by decide, by decide, ⟨_, rfl⟩⟩

/-- The last base at which 15 rows fit, and at which one row does; the first at which it does not;
no rows at a base out of range. -/
theorem witness_DrawCompositesTheSprite :
    ({ State.reset with i := 0xFF1 }).i.toNat + (15 : Nibble).toNat - 1 ≤ 0xFFF ∧
    ({ State.reset with i := 0xFFF }).i.toNat + (1 : Nibble).toNat - 1 ≤ 0xFFF ∧
    1 ≤ (1 : Nibble).toNat ∧
    0xFFF < ({ State.reset with i := 0x1000 }).i.toNat + (1 : Nibble).toNat - 1 ∧
    (0 : Nibble) = 0 ∧ ¬(1 ≤ (0 : Nibble).toNat) := by decide

/-- Fifteen sprite bytes, each pixel of them, and a pixel of the grid that no sprite pixel falls
on. -/
theorem witness_DrawIsPixelwiseExclusiveOr :
    (List.replicate 15 (0xFF : Byte)).length ≤ 15 ∧
    (∀ k j, k < 1 → j < 8 → ¬(8 = spriteCol 0 j ∧ 0 = spriteRow 0 k)) := by
  refine ⟨by decide, ?_⟩
  intro k j _ hj h
  simp only [spriteCol, Config.fbWidth] at h
  omega

/-- A first draw that sets a pixel. -/
theorem witness_SecondDrawUndoesTheFirst :
    ([0x80] : List Byte).length ≤ 15 ∧
    Framebuffer.pixel Framebuffer.cleared 0 0 = false ∧
    Framebuffer.pixel (Framebuffer.draw Framebuffer.cleared 0 0 [0x80]).1 0 0 = true := by decide

theorem witness_DrawAfterClearShowsTheSprite :
    State.reset.i.toNat + (5 : Nibble).toNat - 1 ≤ 0xFFF ∧
    ∃ u t, exec (.clearScreen 0) State.reset = .next u ∧ exec (.draw 0 1 5) u = .next t :=
  ⟨by decide, _, _, rfl, rfl⟩

theorem witness_KeySkipsFollowTheKeyState :
    ((regs [(2, 0x0F)]).reg 2).toNat ≤ 15 ∧ 15 < ((regs [(2, 0x10)]).reg 2).toNat := by decide

/-- Both answers of the collaborator are possible, in type; which one is given is free (log 4). -/
theorem witness_WaitKeyStoresTheKeyOrRepeats :
    (∃ s : State, Config.nextKey s.env = none ∨ ∃ k, Config.nextKey s.env = some k) := by
  refine ⟨State.reset, ?_⟩
  cases Config.nextKey State.reset.env with
  | none => exact .inl rfl
  | some k => exact .inr ⟨k, rfl⟩

/-- A running timer and an idle one. -/
theorem witness_TickDecrementsOneTimer :
    0 < ({ State.reset with dt := 1 }).dt.toNat ∧ State.reset.st.toNat = 0 := by decide

theorem witness_ResetValues : ∃ t, act .reset (after .stackOverflow) = .next t := ⟨_, rfl⟩

/-- The longest image that is accepted, and the shortest that is not. -/
theorem witness_LoadCopiesTheImage :
    (List.replicate 3584 (1 : Byte)).length ≤ 3584 ∧
    3584 < (List.replicate 3585 (1 : Byte)).length ∧ Memory.wf State.reset.mem := by
  refine ⟨by rw [List.length_replicate], by rw [List.length_replicate]; decide, by decide⟩

theorem witness_FirstStepRunsTheFirstImageWord :
    (∃ t, State.reset.resetCore.load [0x60, 0x05, 0xA3, 0x00] = (.ok, t)) ∧
    decode ((0x60 : Byte) ++ (0x05 : Byte)) = .instr (.movImm 0 5) := ⟨⟨_, rfl⟩, by decide⟩

/-- A word placed on a core that is halted and cannot fetch. -/
theorem witness_PlacedWordRunsNext :
    Memory.wf ({ after .stackOverflow with pc := 0x1000 }).mem ∧
    decode (BitVec.ofNat 16 0x6005) = .instr (.movImm 0 5) := by decide

/-- The last pixel, the last even address and the last register. -/
theorem witness_OutputsShowTheState :
    31 < 32 ∧ 63 < 64 ∧ 2047 < 2048 ∧ (15 : Reg).toNat < 16 := by decide

end Sys2Proof.Tests
end

section
/-! SUPPORT. The meaning of an instruction in one shape, its check and then its effect, and what
each effect and each step can change. Everything below is about `exec` and `interpret` through
`exec_eq_checkThen`, so that a proof over all instructions treats a taken error once. -/

namespace Sys2Proof.Machine

open Sys2Proof.Claim (transfersControl)

/-! ## An instruction is a check and an effect (40 R124) -/

/-- The check an instruction makes before it does anything; none for one that always completes. -/
def checkOf (i : Instr) (s : State) : Option Cause :=
  match i with
  | .jsr _ => s.checkPush
  | .retFromSub _ => s.checkPop
  | .fontIndex x => checkFontIndex (s.reg x)
  | .skipKeyPressed x => checkKeyIndex (s.reg x)
  | .skipKeyNotPressed x => checkKeyIndex (s.reg x)
  | .draw _ _ n => checkRead s.indexAddr n.toNat
  | .loadRegs x => checkRead s.indexAddr (countOf x)
  | .storeBcd _ => checkWrite s.indexAddr 3
  | .storeRegs x => checkWrite s.indexAddr (countOf x)
  | _ => none

/-- What an instruction does once its check has passed. -/
def effectOf (i : Instr) (s : State) : State :=
  match i with
  | .clearScreen _ => s.clearFb
  | .retFromSub _ => s.drop.setPc s.top
  | .jmp nnn => s.setPc (addrOf nnn)
  | .jsr nnn => (s.push s.pc).setPc (addrOf nnn)
  | .skipEqImm x kk => s.skipIf (s.reg x == kk)
  | .skipNeImm x kk => s.skipIf (s.reg x != kk)
  | .skipEqReg x y _ => s.skipIf (s.reg x == s.reg y)
  | .movImm x kk => s.writeReg x kk.toNat
  | .addImm x kk => s.writeReg x ((s.reg x).toNat + kk.toNat)
  | .mov x y => s.writeReg x (s.reg y).toNat
  | .orReg x y => s.writeReg x (s.reg x ||| s.reg y).toNat
  | .andReg x y => s.writeReg x (s.reg x &&& s.reg y).toNat
  | .xorReg x y => s.writeReg x (s.reg x ^^^ s.reg y).toNat
  | .add x y => s.writeCarry x ((s.reg x).toNat + (s.reg y).toNat)
  | .sub x y => s.writeNoBorrow x ((s.reg x).toNat - (s.reg y).toNat)
  | .shr x _ => s.writeThenFlag x ((s.reg x).toNat / 2 : Nat) ((s.reg x).getLsbD 0)
  | .subn x y => s.writeNoBorrow x ((s.reg y).toNat - (s.reg x).toNat)
  | .shl x _ => s.writeThenFlag x ((s.reg x).toNat * 2 : Nat) ((s.reg x).getLsbD 7)
  | .skipNeReg x y _ => s.skipIf (s.reg x != s.reg y)
  | .movIndex nnn => s.setIndex (addrOf nnn)
  | .jmpV0 nnn => s.setPc (addrOf nnn + wide (s.reg 0))
  | .rand x kk => s.writeReg x (s.randomDraw kk)
  | .draw x y n =>
    (s.drawFb (s.reg x).toNat (s.reg y).toNat
      (Memory.readBytes s.mem s.indexAddr n.toNat)).writeCollision.emitDrawDone
  | .skipKeyPressed x => s.skipIf (s.keyPressed (s.reg x))
  | .skipKeyNotPressed x => s.skipIf (!s.keyPressed (s.reg x))
  | .getDelay x => s.writeReg x s.dt.toNat
  | .waitKey x => s.acceptKey x s.nextKey
  | .setDelay x => s.setDelayTimer (s.reg x)
  | .setSound x => s.setSoundTimer (s.reg x)
  | .addIndex x => s.setIndex (s.i + wide (s.reg x))
  | .fontIndex x => s.setIndex (glyphAddr (s.reg x))
  | .storeBcd x => s.storeBytes s.indexAddr (bcdDigits (s.reg x))
  | .storeRegs x => s.storeBytes s.indexAddr (s.regsUpTo x)
  | .loadRegs x => s.loadRegsFrom s.indexAddr (countOf x)

/-- Every meaning is its check, then its effect. -/
theorem exec_eq_checkThen (i : Instr) (s : State) :
    exec i s = s.checkThen i (checkOf i s) (effectOf i s) := by
  cases i <;> rfl

/-- The two ways a meaning answers: the error of its check, or its effect. -/
theorem exec_next {i : Instr} {s t : State} (h : exec i s = .next t) :
    (∃ c, checkOf i s = some c ∧ t = s.takeError c (encode i)) ∨
    (checkOf i s = none ∧ t = effectOf i s) := by
  rw [exec_eq_checkThen] at h
  rcases s.checkThen_cases i (checkOf i s) (effectOf i s) with ⟨c, hc, e⟩ | ⟨hc, e⟩
  · exact .inl ⟨c, hc, by simpa [e] using h.symm⟩
  · exact .inr ⟨hc, by simpa [e] using h.symm⟩

/-! ## What an effect leaves unchanged, component by component (10 R20) -/

@[simp] theorem effectOf_status (i : Instr) (s : State) : (effectOf i s).status = s.status := by
  cases i <;> simp [effectOf]

@[simp] theorem effectOf_env (i : Instr) (s : State) : (effectOf i s).env = s.env := by
  cases i <;> simp [effectOf]

theorem effectOf_fb (i : Instr) (s : State) :
    (effectOf i s).fb = s.fb ∨ (∃ z, i = .clearScreen z) ∨ ∃ x y n, i = .draw x y n := by
  cases i with
  | clearScreen z => exact .inr (.inl ⟨z, rfl⟩)
  | draw x y n => exact .inr (.inr ⟨x, y, n, rfl⟩)
  | _ => exact .inl (by simp [effectOf])

theorem effectOf_collision (i : Instr) (s : State) :
    (effectOf i s).collision = s.collision ∨ ∃ x y n, i = .draw x y n := by
  cases i with
  | draw x y n => exact .inr ⟨x, y, n, rfl⟩
  | _ => exact .inl (by simp [effectOf])

theorem effectOf_drawDone (i : Instr) (s : State) :
    (effectOf i s).drawDone = s.drawDone ∨ ∃ x y n, i = .draw x y n := by
  cases i with
  | draw x y n => exact .inr ⟨x, y, n, rfl⟩
  | _ => exact .inl (by simp [effectOf])

theorem effectOf_stack (i : Instr) (s : State) :
    (effectOf i s).stack = s.stack ∨ ∃ nnn, i = .jsr nnn := by
  cases i with
  | jsr nnn => exact .inr ⟨nnn, rfl⟩
  | _ => exact .inl (by simp [effectOf])

theorem effectOf_sp (i : Instr) (s : State) :
    (effectOf i s).sp = s.sp ∨ (∃ nnn, i = .jsr nnn) ∨ ∃ z, i = .retFromSub z := by
  cases i with
  | jsr nnn => exact .inr (.inl ⟨nnn, rfl⟩)
  | retFromSub z => exact .inr (.inr ⟨z, rfl⟩)
  | _ => exact .inl (by simp [effectOf])

theorem effectOf_i (i : Instr) (s : State) :
    (effectOf i s).i = s.i ∨
      (∃ nnn, i = .movIndex nnn) ∨ ∃ x, i = .addIndex x ∨ i = .fontIndex x := by
  cases i with
  | movIndex nnn => exact .inr (.inl ⟨nnn, rfl⟩)
  | addIndex x => exact .inr (.inr ⟨x, .inl rfl⟩)
  | fontIndex x => exact .inr (.inr ⟨x, .inr rfl⟩)
  | _ => exact .inl (by simp [effectOf])

theorem effectOf_dt (i : Instr) (s : State) :
    (effectOf i s).dt = s.dt ∨ ∃ x, i = .setDelay x := by
  cases i with
  | setDelay x => exact .inr ⟨x, rfl⟩
  | _ => exact .inl (by simp [effectOf])

theorem effectOf_st (i : Instr) (s : State) :
    (effectOf i s).st = s.st ∨ ∃ x, i = .setSound x := by
  cases i with
  | setSound x => exact .inr ⟨x, rfl⟩
  | _ => exact .inl (by simp [effectOf])

theorem effectOf_mem (i : Instr) (s : State) :
    (effectOf i s).mem = s.mem ∨ ∃ x, i = .storeBcd x ∨ i = .storeRegs x := by
  cases i with
  | storeBcd x => exact .inr ⟨x, .inl rfl⟩
  | storeRegs x => exact .inr ⟨x, .inr rfl⟩
  | _ => exact .inl (by simp [effectOf])

/-- Only a control transfer moves pc from the advanced pc (10 R26). -/
theorem effectOf_pc {i : Instr} (s : State) (h : transfersControl i = false) :
    (effectOf i s).pc = s.pc := by
  revert h; cases i <;> simp [effectOf, transfersControl]

end Sys2Proof.Machine
end

section
/-! SUPPORT. The registers and the memory an effect writes, and the bounds of pc. -/

namespace Sys2Proof.Machine

open Sys2Proof.Claim (destination writesFlag)
open Sys2Proof.Safety

/-! ## Registers (10 R24) -/

/-- A result written to `V[x]` and then a flag to VF leave the other registers. -/
theorem State.reg_writeReg_vf_ne (s : State) {x r : Reg} (raw flag : Int) (hx : r ≠ x)
    (hf : r ≠ vf) : ((s.writeReg x raw).writeReg vf flag).reg r = s.reg r := by
  rw [State.reg_writeReg_ne _ flag hf, State.reg_writeReg_ne s raw hx]

/-- A key goes to `V[x]` only. -/
theorem State.reg_acceptKey_ne (s : State) {x r : Reg} (k : Option Nibble) (hx : r ≠ x) :
    (s.acceptKey x k).reg r = s.reg r := by
  cases k with
  | none => exact State.setPc_reg s _ r
  | some k => exact State.reg_writeReg_ne s _ hx

/-- A block load leaves the registers above `x`. -/
theorem State.reg_loadRegsFrom_gt (s : State) {x r : Reg} (a : Nat) (h : x.toNat < r.toNat) :
    (s.loadRegsFrom a (countOf x)).reg r = s.reg r := by
  rw [countOf, State.reg_loadRegsFrom s a _ x.isLt r, if_neg (by omega)]

/-- A register that is no destination, no flag to be written and not loaded keeps its value. -/
theorem effectOf_reg {i : Instr} (s : State) {r : Reg} (hd : destination i ≠ some r)
    (hf : r = vf → writesFlag i = false) (hl : ∀ x, i = .loadRegs x → x.toNat < r.toNat) :
    (effectOf i s).reg r = s.reg r := by
  have flag_ne (h : writesFlag i = true) : r ≠ vf := fun e => by simp [hf e] at h
  have dest_ne {x : Reg} (h : destination i = some x) : r ≠ x := fun e => hd (e ▸ h)
  cases i with
  | movImm | addImm | mov | orReg | andReg | xorReg | rand | getDelay =>
    exact State.reg_writeReg_ne s _ (dest_ne rfl)
  | add | sub | shr | subn | shl =>
    exact State.reg_writeReg_vf_ne s _ _ (dest_ne rfl) (flag_ne rfl)
  | draw => exact State.reg_writeReg_ne _ _ (flag_ne rfl)
  | waitKey => exact State.reg_acceptKey_ne s _ (dest_ne rfl)
  | loadRegs x => exact State.reg_loadRegsFrom_gt s _ (hl x rfl)
  | _ => simp [effectOf]

/-! ## Memory (10 R34, 20 R69) -/

/-- The one way a step writes memory: bytes at `I` upward, inside 0x200 to 0xFFF. -/
def StoresInRange (s t : State) : Prop :=
  ∃ bs : List Byte, 0x200 ≤ s.indexAddr ∧ s.indexAddr + bs.length ≤ 0x1000 ∧
    t.mem = Memory.writeBytes s.mem s.indexAddr bs

/-- A store whose check has passed writes in range. -/
theorem storesInRange_of_checkWrite {s : State} {bs : List Byte}
    (h : checkWrite s.indexAddr bs.length = none) :
    StoresInRange s (s.storeBytes s.indexAddr bs) :=
  have ⟨hhi, hlo⟩ := checkWrite_eq_none.1 h
  ⟨bs, hlo, hhi, rfl⟩

theorem effectOf_mem_of_check {i : Instr} {s : State} (h : checkOf i s = none) :
    (effectOf i s).mem = s.mem ∨ StoresInRange s (effectOf i s) := by
  rcases effectOf_mem i s with h' | ⟨x, rfl | rfl⟩
  · exact .inl h'
  · exact .inr (storesInRange_of_checkWrite h)
  · exact .inr (storesInRange_of_checkWrite (by rwa [State.regsUpTo_length]))

/-- What an interpreter step does to memory: nothing, or one store in range. -/
theorem interpret_mem {s t : State} (h : interpret s = .next t) :
    t.mem = s.mem ∨ StoresInRange s t := by
  obtain ⟨-, ⟨-, rfl⟩ | ⟨-, -, rfl⟩ | ⟨-, i, -, he⟩⟩ := interpret_cases h
  · exact .inl rfl
  · exact .inl rfl
  · rcases exec_next he with ⟨c, -, rfl⟩ | ⟨hc, rfl⟩
    · exact .inl rfl
    · exact effectOf_mem_of_check hc

/-- A store in range leaves every byte below 0x200. -/
theorem StoresInRange.read_below {s t : State} (h : StoresInRange s t) {a : Nat} (ha : a < 0x200) :
    Memory.read t.mem a = Memory.read s.mem a := by
  obtain ⟨bs, hlo, -, hm⟩ := h
  rw [hm, Memory.read_writeBytes_other _ _ _ (.inl (by omega))]

/-- A store in range keeps memory canonical and lists no cell below 0x200. -/
theorem StoresInRange.memoryOk {s t : State} (h : StoresInRange s t) (hs : MemoryOk s.mem) :
    MemoryOk t.mem := by
  obtain ⟨bs, hlo, hhi, hm⟩ := h
  rw [hm]
  refine ⟨Memory.wf_writeBytes hs.1 hhi, fun c hc => ?_⟩
  rcases Memory.mem_writeBytes hc with ⟨hac, -, -⟩ | hc
  · exact Nat.le_trans hlo hac
  · exact hs.2 c hc

theorem interpret_memoryOk {s t : State} (h : interpret s = .next t) (hs : MemoryOk s.mem) :
    MemoryOk t.mem := by
  rcases interpret_mem h with hm | hm
  · rwa [hm]
  · exact hm.memoryOk hs

/-! ## STATUS (10 R41, 60 R250 to R254) -/

/-- The causes an instruction can take are among those a step records. -/
theorem CanTake.recordable {i : Instr} {c : Cause} (h : CanTake i c) : recordable c.code := by
  rcases h with ⟨rfl, -⟩ | ⟨rfl, -⟩ | ⟨rfl, -⟩ | ⟨rfl, -⟩ | ⟨rfl, -⟩ | ⟨rfl, -⟩ | ⟨rfl, -⟩ |
    ⟨rfl | rfl, -⟩ <;> decide

/-- A step that reports nothing leaves a `STATUS` that steps can leave (40 R125). -/
theorem statusOk_advance {s : State} (hs : StatusOk s.status) (hh : s.status.halted = false) :
    StatusOk s.advance.status := by
  obtain ⟨-, -, -, -, hseen⟩ := hs
  exact ⟨.inl rfl, fun _ => rfl, fun h => absurd rfl h, by simp [hh, fatalCode], hseen⟩

theorem getLsbD_or_eq_false {a b : BitVec 10} {n : Nat} (ha : a.getLsbD n = false)
    (hb : b.getLsbD n = false) : (a ||| b).getLsbD n = false := by
  rw [BitVec.getLsbD_or, ha, hb, Bool.or_false]

theorem Cause.code_ne_zero (c : Cause) : c.code ≠ 0 := by cases c <;> decide

/-- Taking a recordable error on a live core leaves a `STATUS` that steps can leave (60 R253,
R254). -/
theorem statusOk_takeError {s : State} {c : Cause} (info : Word) (hs : StatusOk s.status)
    (hh : s.status.halted = false) (hc : recordable c.code) :
    StatusOk (s.takeError c info).status := by
  obtain ⟨-, -, -, -, h0, h2, h6⟩ := hs
  have hbit : (seenBit c.code).getLsbD c.code.toNat = true := by cases c <;> decide
  have hlow : (seenBit c.code).getLsbD 0 = false ∧ (seenBit c.code).getLsbD 2 = false ∧
      (seenBit c.code).getLsbD 6 = false := by
    revert hc; cases c <;> decide
  obtain ⟨b0, b2, b6⟩ := hlow
  refine ⟨hc, fun h => absurd h c.code_ne_zero, fun _ => ?_, ?_,
    getLsbD_or_eq_false h0 b0, getLsbD_or_eq_false h2 b2, getLsbD_or_eq_false h6 b6⟩
  · simp [hbit]
  · simpa [hh, fatalCode] using c.fatal_iff

theorem interpret_statusOk {s t : State} (h : interpret s = .next t) (hs : StatusOk s.status) :
    StatusOk t.status := by
  obtain ⟨hh, ⟨-, rfl⟩ | ⟨-, -, rfl⟩ | ⟨-, i, -, he⟩⟩ := interpret_cases h
  · exact statusOk_takeError _ hs hh (by decide)
  · exact statusOk_takeError _ (statusOk_advance hs hh) hh (by decide)
  · obtain ⟨t', ht', hcase⟩ := exec_cases i s.advance
    obtain rfl : t' = t := by simpa [ht'] using he
    rcases hcase with hst | ⟨c, rfl, hc⟩
    · rw [hst]; exact statusOk_advance hs hh
    · exact statusOk_takeError _ (statusOk_advance hs hh) hh hc.recordable

/-- `Step()` keeps the invariant of memory and `STATUS`. -/
theorem interpret_inv {s t : State} (hs : Inv s) (h : interpret s = .next t) : Inv t :=
  ⟨interpret_memoryOk h hs.1, interpret_statusOk h hs.2⟩

/-! ## pc and the stacked return addresses (10 R26) -/

theorem addrOf_toNat_lt (nnn : Addr) : (addrOf nnn).toNat < 0x1000 := by
  have := nnn.isLt
  simp only [addrOf, BitVec.toNat_setWidth]
  omega

theorem jumpTarget_toNat_le (nnn : Addr) (b : Byte) : (addrOf nnn + wide b).toNat ≤ 0x10FE := by
  have := addrOf_toNat_lt nnn
  have := b.isLt
  rw [BitVec.toNat_add, wide, BitVec.toNat_setWidth]
  omega

theorem State.skipIf_pc_toNat_le {s : State} (c : Bool) (h : s.pc.toNat ≤ 0x1000) :
    (s.skipIf c).pc.toNat ≤ 0x1002 := by
  cases c
  · exact Nat.le_trans h (by decide)
  · simp only [State.skipIf_pc, if_true]
    bv_omega

/-- A wait that no key ends goes back onto its own instruction, so pc does not wrap (45 R232). -/
theorem State.acceptKey_pc_toNat_le {s : State} (x : Reg) (k : Option Nibble)
    (h : 2 ≤ s.pc.toNat) : (s.acceptKey x k).pc.toNat ≤ s.pc.toNat := by
  cases k with
  | none => simp only [State.acceptKey, State.setPc_pc]; bv_omega
  | some k => exact Nat.le_refl _

/-- Every stack entry, stale ones included, is at most 0x1000. -/
def StackBounded (s : State) : Prop := ∀ k : Fin Config.stackDepth, (s.stack[k]).toNat ≤ 0x1000

theorem StackBounded.top {s : State} (h : StackBounded s) : s.top.toNat ≤ 0x1000 :=
  h ⟨s.sp.val - 1, by have : s.sp.val < 17 := s.sp.isLt; simp only [Config.stackDepth]; omega⟩

theorem StackBounded.push {s : State} (h : StackBounded s) {w : Word} (hw : w.toNat ≤ 0x1000) :
    StackBounded (s.push w) := by
  intro k
  by_cases hsp : s.sp.val < Config.stackDepth
  · by_cases hk : k.val = s.sp.val
    · rw [State.push_of_lt s w hsp]; simpa [hk] using hw
    · simpa [State.push_stack_other s w k.val k.isLt hk] using h k
  · simpa [State.push, hsp] using h k

/-- The effect on an advanced pc, which lies from 2 to 0x1000, stays within the bounds. -/
theorem effectOf_pcInv (i : Instr) {s : State} (hlo : 2 ≤ s.pc.toNat) (hhi : s.pc.toNat ≤ 0x1000)
    (hst : StackBounded s) : PcInv (effectOf i s) := by
  constructor
  · cases i with
    | jmp nnn | jsr nnn => exact Nat.le_trans (Nat.le_of_lt (addrOf_toNat_lt nnn)) (by decide)
    | retFromSub => exact Nat.le_trans hst.top (by decide)
    | jmpV0 nnn => exact jumpTarget_toNat_le nnn _
    | skipEqImm | skipNeImm | skipEqReg | skipNeReg | skipKeyPressed | skipKeyNotPressed =>
      exact Nat.le_trans (State.skipIf_pc_toNat_le _ hhi) (by decide)
    | waitKey x => exact Nat.le_trans (State.acceptKey_pc_toNat_le x _ hlo) (by omega)
    | _ => rw [effectOf_pc s rfl]; omega
  · rcases effectOf_stack i s with h | ⟨nnn, rfl⟩
    · rwa [h]
    · exact hst.push hhi

/-- A fetch that is in range leaves the advanced pc from 2 to 0x1000 (40 R121). -/
theorem State.advance_pc_bounds {s : State} (h : s.fetchable = true) :
    2 ≤ s.advance.pc.toNat ∧ s.advance.pc.toNat ≤ 0x1000 := by
  have : s.pc.toNat + 1 ≤ 0xFFF := by simpa [State.fetchable] using h
  rw [State.advance_pc]
  constructor <;> bv_omega

/-- `Step()` keeps the bounds. -/
theorem interpret_pcInv {s t : State} (hs : PcInv s) (h : interpret s = .next t) : PcInv t := by
  obtain ⟨-, ⟨-, rfl⟩ | ⟨hf, -, rfl⟩ | ⟨hf, i, -, he⟩⟩ := interpret_cases h
  · exact hs
  · exact ⟨Nat.le_trans (State.advance_pc_bounds hf).2 (by decide), hs.2⟩
  · obtain ⟨hlo, hhi⟩ := State.advance_pc_bounds hf
    rcases exec_next he with ⟨c, -, rfl⟩ | ⟨-, rfl⟩
    · exact ⟨Nat.le_trans hhi (by decide), hs.2⟩
    · exact effectOf_pcInv i hlo hhi hs.2

end Sys2Proof.Machine
end

section
/-! SUPPORT. `Step()` in its three cases, and the reset contents of memory. -/

namespace Sys2Proof.Machine

/-! ## `Step()` on a live core (40 R120, R121, R123) -/

theorem interpret_of_not_fetchable {s : State} (hh : s.status.halted = false)
    (hf : s.fetchable = false) : interpret s = .next (s.takeError .memoryRangeFault s.pc) := by
  simp [interpret, hh, hf]

theorem interpret_of_invalid {s : State} {why : InvalidReason} (hh : s.status.halted = false)
    (hf : s.fetchable = true) (hd : decode s.fetched = .invalid why) :
    interpret s = .next (s.advance.takeError .decodeError s.fetched) := by
  simp [interpret, execWord, hh, hf, hd]

theorem interpret_of_instr {s : State} {i : Instr} (hh : s.status.halted = false)
    (hf : s.fetchable = true) (hd : decode s.fetched = .instr i) :
    interpret s = exec i s.advance := by
  simp [interpret, execWord, hh, hf, hd]

/-! ## Memory after reset (10 R35, R43) -/

theorem Memory.base_of_font {a : Nat} (h : a < Config.font.length) :
    Memory.base a = Config.font[a] := by
  simp [Memory.base, List.getElem?_eq_getElem h]

theorem Memory.base_of_ge {a : Nat} (h : 0x050 ≤ a) : Memory.base a = 0 := by
  have hlen : Config.font.length = 0x050 := rfl
  simp [Memory.base, List.getElem?_eq_none (hlen ▸ h)]

end Sys2Proof.Machine
end

section
/-! SUPPORT. `AgreeOnVisible` is kept by every operation (10 R23, R30, R39): one rule for each
operation, then the check, the effect, the meaning and `Step()` of two such states. -/

namespace Sys2Proof.Claim

open Sys2Proof.Machine

/-- The components in which two such states agree, spelled out one by one. -/
theorem agreeOnVisible_iff {s s' : State} : AgreeOnVisible s s' ↔
    (∀ k : Fin Config.stackDepth, k.val < s.sp.val → s'.stack[k] = s.stack[k]) ∧
    s'.v = s.v ∧ s'.pc = s.pc ∧ s'.i = s.i ∧ s'.sp = s.sp ∧ s'.mem = s.mem ∧ s'.fb = s.fb ∧
    s'.dt = s.dt ∧ s'.status = s.status ∧ s'.env = s.env := by
  cases s; cases s'
  simp [AgreeOnVisible]

namespace AgreeOnVisible

section
variable {s s' : State} (h : AgreeOnVisible s s')
include h

/-! ## What the two states agree in -/

theorem stack (k : Fin Config.stackDepth) (hk : k.val < s.sp.val) : s'.stack[k] = s.stack[k] :=
  h.1 k hk

theorem v : s'.v = s.v := by rw [h.2]
theorem pc : s'.pc = s.pc := by rw [h.2]
theorem i : s'.i = s.i := by rw [h.2]
theorem sp : s'.sp = s.sp := by rw [h.2]
theorem mem : s'.mem = s.mem := by rw [h.2]
theorem fb : s'.fb = s.fb := by rw [h.2]
theorem dt : s'.dt = s.dt := by rw [h.2]
theorem status : s'.status = s.status := by rw [h.2]
theorem env : s'.env = s.env := by rw [h.2]

theorem reg (r : Reg) : s'.reg r = s.reg r := by rw [h.2]; rfl
theorem indexAddr : s'.indexAddr = s.indexAddr := by rw [h.2]; rfl
theorem regsUpTo (x : Reg) : s'.regsUpTo x = s.regsUpTo x := by rw [h.2]; rfl
theorem keyPressed (b : Byte) : s'.keyPressed b = s.keyPressed b := by rw [h.2]; rfl
theorem nextKey : s'.nextKey = s.nextKey := by rw [h.2]; rfl
theorem randomDraw (kk : Byte) : s'.randomDraw kk = s.randomDraw kk := by rw [h.2]; rfl
theorem checkPush : s'.checkPush = s.checkPush := by rw [h.2]; rfl
theorem checkPop : s'.checkPop = s.checkPop := by rw [h.2]; rfl
theorem fetchable : s'.fetchable = s.fetchable := by rw [h.2]; rfl
theorem fetched : s'.fetched = s.fetched := by rw [h.2]; rfl

/-- The newest entry is a live one, so both states return to the same address (10 R32). -/
theorem top (hsp : 0 < s.sp.val) : s'.top = s.top := by
  have hlt : s.sp.val < 17 := s.sp.isLt
  have := h.stack ⟨s.sp.val - 1, by simp only [Config.stackDepth]; omega⟩ (by simp only; omega)
  simpa [State.top, h.sp] using this

/-! ## One rule for each operation -/

theorem writeReg (r : Reg) (raw : Int) : AgreeOnVisible (s.writeReg r raw) (s'.writeReg r raw) :=
  ⟨h.1, by rw [h.2]; rfl⟩

theorem setPc (w : Word) : AgreeOnVisible (s.setPc w) (s'.setPc w) := ⟨h.1, by rw [h.2]; rfl⟩

theorem setIndex (w : Word) : AgreeOnVisible (s.setIndex w) (s'.setIndex w) :=
  ⟨h.1, by rw [h.2]; rfl⟩

theorem storeBytes (a : Nat) (bs : List Byte) :
    AgreeOnVisible (s.storeBytes a bs) (s'.storeBytes a bs) := ⟨h.1, by rw [h.2]; rfl⟩

theorem setDelayTimer (b : Byte) : AgreeOnVisible (s.setDelayTimer b) (s'.setDelayTimer b) :=
  ⟨h.1, by rw [h.2]; rfl⟩

theorem setSoundTimer (b : Byte) : AgreeOnVisible (s.setSoundTimer b) (s'.setSoundTimer b) :=
  ⟨h.1, by rw [h.2]; rfl⟩

theorem clearFb : AgreeOnVisible s.clearFb s'.clearFb := ⟨h.1, by rw [h.2]; rfl⟩

theorem drawFb (x y : Nat) (sprite : List Byte) :
    AgreeOnVisible (s.drawFb x y sprite) (s'.drawFb x y sprite) := ⟨h.1, by rw [h.2]; rfl⟩

theorem emitDrawDone : AgreeOnVisible s.emitDrawDone s'.emitDrawDone := ⟨h.1, by rw [h.2]; rfl⟩

theorem takeError (c : Cause) (info : Word) :
    AgreeOnVisible (s.takeError c info) (s'.takeError c info) := ⟨h.1, by rw [h.2]; rfl⟩

theorem advance : AgreeOnVisible s.advance s'.advance := ⟨h.1, by rw [h.2]; rfl⟩

/-- The entry that a return leaves behind becomes a stale one (10 R30). -/
theorem drop : AgreeOnVisible s.drop s'.drop :=
  ⟨fun k hk => h.1 k (Nat.lt_of_lt_of_le hk (Nat.sub_le _ _)), by rw [h.2]; rfl⟩

/-- The entry that a call pushes is the same on both stacks. -/
theorem push (w : Word) (hsp : s.sp.val < Config.stackDepth) :
    AgreeOnVisible (s.push w) (s'.push w) := by
  have hsp' : s'.sp.val < Config.stackDepth := by rwa [h.sp]
  rw [State.push_of_lt s w hsp, State.push_of_lt s' w hsp', agreeOnVisible_iff]
  refine ⟨fun k hk => ?_, by simp [h.v, h.pc, h.i, h.sp, h.mem, h.fb, h.dt, h.status, h.env]⟩
  have hk : k.val < s.sp.val + 1 := hk
  by_cases he : k.val = s.sp.val
  · simp [he, h.sp]
  · have := h.stack k (by omega)
    simpa [Ne.symm he, h.sp] using this

theorem skipIf (c : Bool) : AgreeOnVisible (s.skipIf c) (s'.skipIf c) := by
  unfold State.skipIf
  rw [h.pc]
  exact h.setPc _

theorem acceptKey (x : Reg) (k : Option Nibble) :
    AgreeOnVisible (s.acceptKey x k) (s'.acceptKey x k) := by
  cases k with
  | none =>
    show AgreeOnVisible (s.setPc (s.pc - 2)) (s'.setPc (s'.pc - 2))
    rw [h.pc]
    exact h.setPc _
  | some k => exact h.writeReg x _

theorem loadRegsFrom (a n : Nat) : AgreeOnVisible (s.loadRegsFrom a n) (s'.loadRegsFrom a n) := by
  induction n with
  | zero => exact h
  | succ k ih =>
    simp only [State.loadRegsFrom, ih.mem]
    exact ih.writeReg _ _

/-- The flag of a draw is the collision of that draw, which is the same in both states. -/
theorem writeCollision (hc : s'.collision = s.collision) :
    AgreeOnVisible s.writeCollision s'.writeCollision := by
  unfold State.writeCollision
  rw [hc]
  exact h.writeReg _ _

/-! ## The check, the effect, the meaning -/

theorem checkOf_eq (i : Instr) : checkOf i s' = checkOf i s := by
  cases i <;> simp only [checkOf, h.reg, h.indexAddr, h.checkPush, h.checkPop]

theorem effectOf_agree {i : Instr} (hc : checkOf i s = none) :
    AgreeOnVisible (effectOf i s) (effectOf i s') := by
  cases i with
  | clearScreen => exact h.clearFb
  | retFromSub =>
    simp only [effectOf, h.top (State.checkPop_eq_none.1 hc)]
    exact h.drop.setPc _
  | jmp => exact h.setPc _
  | jsr =>
    simp only [effectOf, h.pc]
    exact (h.push _ (State.checkPush_eq_none.1 hc)).setPc _
  | jmpV0 => simp only [effectOf, h.reg]; exact h.setPc _
  | skipEqImm | skipNeImm | skipEqReg | skipNeReg => simp only [effectOf, h.reg]; exact h.skipIf _
  | skipKeyPressed | skipKeyNotPressed =>
    simp only [effectOf, h.reg, h.keyPressed]; exact h.skipIf _
  | movImm => exact h.writeReg _ _
  | addImm | mov | orReg | andReg | xorReg => simp only [effectOf, h.reg]; exact h.writeReg _ _
  | rand => simp only [effectOf, h.randomDraw]; exact h.writeReg _ _
  | getDelay => simp only [effectOf, h.dt]; exact h.writeReg _ _
  | add =>
    simp only [effectOf, h.reg, State.writeCarry_eq]; exact (h.writeReg _ _).writeReg _ _
  | sub | subn =>
    simp only [effectOf, h.reg, State.writeNoBorrow_eq]; exact (h.writeReg _ _).writeReg _ _
  | shr | shl =>
    simp only [effectOf, h.reg, State.writeThenFlag_eq]; exact (h.writeReg _ _).writeReg _ _
  | draw =>
    simp only [effectOf, h.reg, h.mem, h.indexAddr]
    exact ((h.drawFb _ _ _).writeCollision (by simp [h.fb])).emitDrawDone
  | waitKey => simp only [effectOf, h.nextKey]; exact h.acceptKey _ _
  | setDelay => simp only [effectOf, h.reg]; exact h.setDelayTimer _
  | setSound => simp only [effectOf, h.reg]; exact h.setSoundTimer _
  | movIndex => exact h.setIndex _
  | addIndex => simp only [effectOf, h.i, h.reg]; exact h.setIndex _
  | fontIndex => simp only [effectOf, h.reg]; exact h.setIndex _
  | storeBcd => simp only [effectOf, h.indexAddr, h.reg]; exact h.storeBytes _ _
  | storeRegs => simp only [effectOf, h.indexAddr, h.regsUpTo]; exact h.storeBytes _ _
  | loadRegs => simp only [effectOf, h.indexAddr]; exact h.loadRegsFrom _ _

theorem exec_agree {i : Instr} {t : State} (he : exec i s = .next t) :
    ∃ t', exec i s' = .next t' ∧ AgreeOnVisible t t' := by
  rw [exec_eq_checkThen i s', h.checkOf_eq]
  rcases exec_next he with ⟨c, hc, rfl⟩ | ⟨hc, rfl⟩
  · exact ⟨_, by rw [hc]; rfl, h.takeError c _⟩
  · exact ⟨_, by rw [hc]; rfl, h.effectOf_agree hc⟩

theorem interpret_agree {t : State} (ht : interpret s = .next t) :
    ∃ t', interpret s' = .next t' ∧ AgreeOnVisible t t' := by
  obtain ⟨hh, hcase⟩ := interpret_cases ht
  have hh' : s'.status.halted = false := by rw [h.status, hh]
  rcases hcase with ⟨hf, rfl⟩ | ⟨hf, ⟨why, hw⟩, rfl⟩ | ⟨hf, i, hi, he⟩
  · rw [interpret_of_not_fetchable hh' (h.fetchable.trans hf), h.pc]
    exact ⟨_, rfl, h.takeError _ _⟩
  · rw [interpret_of_invalid hh' (h.fetchable.trans hf) (h.fetched ▸ hw), h.fetched]
    exact ⟨_, rfl, h.advance.takeError _ _⟩
  · rw [interpret_of_instr hh' (h.fetchable.trans hf) (h.fetched ▸ hi)]
    exact h.advance.exec_agree he

end

end AgreeOnVisible

end Sys2Proof.Claim
end

section
/-! PROOFS. The statements about the state, its invariants and what writes what (10). -/

namespace Sys2Proof.Proofs

open Sys2Proof.Machine Sys2Proof.Safety Sys2Proof.Claim

/-- Settles O16: the ticks change neither memory nor `STATUS`, and `Step()` keeps both. -/
theorem stepKeepsMemoryAndStatusInvariant : Obligations.StepKeepsMemoryAndStatusInvariant :=
  fun s _ hs h => interpret_inv (s := s.passTime) hs h

/-- Settles O17: a fetched instruction runs on an advanced pc of at most 0x1000, from which no
transfer reaches beyond 0x10FE and which is all that a call pushes. -/
theorem stepKeepsPcBounds : Obligations.StepKeepsPcBounds :=
  fun s _ hs h => interpret_pcInv (s := s.passTime) hs h

/-- Settles O23, by the rule of each operation: no check and no effect reads a hidden component. -/
theorem hiddenStateIsNeverRead : Obligations.HiddenStateIsNeverRead :=
  fun _ _ _ hs h => hs.interpret_agree h

/-- Settles O19: the one store a step can make lies at 0x200 and above. -/
theorem noStepWritesBelowProgBase : Obligations.NoStepWritesBelowProgBase := by
  intro s t h a ha
  rcases interpret_mem (s := s.passTime) h with hm | hm
  · rw [hm, State.passTime_mem]
  · exact hm.read_below ha

/-- Settles O20: a taken error writes none of the components, and each effect only its own. -/
theorem componentsAreWrittenOnlyByTheirInstructions :
    Obligations.ComponentsAreWrittenOnlyByTheirInstructions := by
  intro i s t h
  rcases exec_next h with ⟨c, -, rfl⟩ | ⟨-, rfl⟩
  · simp
  · exact ⟨(effectOf_mem i s).resolve_left, (effectOf_fb i s).resolve_left,
      (effectOf_collision i s).resolve_left, (effectOf_stack i s).resolve_left,
      (effectOf_sp i s).resolve_left, (effectOf_i i s).resolve_left,
      (effectOf_dt i s).resolve_left, (effectOf_st i s).resolve_left,
      (effectOf_drawDone i s).resolve_left, effectOf_env i s⟩

/-- Settles O21: a taken error writes no register, and an effect only those its instruction
names. -/
theorem registersChangeOnlyAsNamed : Obligations.RegistersChangeOnlyAsNamed := by
  intro i s t r h hr
  rcases exec_next h with ⟨c, -, rfl⟩ | ⟨-, rfl⟩
  · exact absurd (State.takeError_reg s c _ r) hr
  · by_contra hn
    obtain ⟨hd, hf, hl⟩ : destination i ≠ some r ∧ (r = vf → writesFlag i = false) ∧
        ∀ x, i = .loadRegs x → x.toNat < r.toNat := by simpa using hn
    exact hr (effectOf_reg s hd hf hl)

/-- Settles O22: a taken error leaves pc, and an effect that moves it is a transfer. -/
theorem pcMovesOnlyByTransfer : Obligations.PcMovesOnlyByTransfer := by
  intro i s t h hpc
  rcases exec_next h with ⟨c, -, rfl⟩ | ⟨-, rfl⟩
  · exact absurd (State.takeError_pc s c _) hpc
  · refine ⟨?_, effectOf_status i s⟩
    by_contra ht
    exact hpc (effectOf_pc s (by simpa using ht))

/-- Settles O15: the reset memory lists no cell, and the stack holds zeros. -/
theorem resetMeetsTheInvariants : Obligations.ResetMeetsTheInvariants := by
  unfold Obligations.ResetMeetsTheInvariants
  refine ⟨⟨⟨Memory.wf_nil, fun _ hc => nomatch hc⟩, by decide⟩, by decide, by decide⟩

/-- Settles O24, from the rule of a register write and the value of `BitVec.ofInt` modulo 256. -/
theorem registerWriteReducesAndFlags : Obligations.RegisterWriteReducesAndFlags := by
  intro s r raw
  refine ⟨?_, ?_, fun r' hr => ?_, fun _ => rfl, rfl⟩
  · rw [State.reg_writeReg_same, toNat_ofInt8]
  · rw [State.writeReg_ovf, decide_eq_true_iff]
  · exact State.reg_writeReg_ne s raw (by simpa using hr)

/-- Settles O55: every field is the one the reset state is made of. -/
theorem resetValues : Obligations.ResetValues := by
  rintro s t ⟨⟩
  refine ⟨rfl, rfl, rfl, rfl, rfl, rfl, rfl, rfl, ?_, ?_, Framebuffer.byte_cleared, ?_, ?_, rfl⟩
  · intro r
    simp [State.resetCore, State.reset, State.reg]
  · intro k
    simp [State.resetCore, State.reset]
  · intro a ha
    exact Memory.base_of_font ha
  · intro a ha
    exact Memory.base_of_ge ha

end Sys2Proof.Proofs
end

section
/-! SUPPORT. A `store_regs` that fits the writable range, and the fetch after it (20 R72, R78,
43 R194). -/

namespace Sys2Proof.Machine

/-- Both bytes of the word at pc are in range (40 R121). -/
theorem State.fetchable_iff {s : State} : s.fetchable = true ↔ s.pc.toNat + 1 ≤ 0xFFF := by
  simp [State.fetchable]

/-- A `store_regs` whose bytes all lie in 0x200 to 0xFFF stores its block. -/
theorem exec_storeRegs_of_inRange {s : State} {x : Reg} (hlo : 0x200 ≤ s.i.toNat)
    (hhi : s.i.toNat + x.toNat ≤ 0xFFF) :
    exec (.storeRegs x) s = .next (s.storeBytes s.i.toNat (s.regsUpTo x)) := by
  have hc : checkOf (.storeRegs x) s = none :=
    checkWrite_eq_none.2 ⟨by simp only [State.indexAddr, countOf]; omega, hlo⟩
  rw [exec_eq_checkThen, hc]
  rfl

/-- Register `r` of a stored block is the byte `r` above its base. -/
theorem State.read_storeBytes_regsUpTo {s : State} (hm : Memory.wf s.mem) (a : Nat) {x r : Reg}
    (hr : r.toNat ≤ x.toNat) :
    Memory.read (s.storeBytes a (s.regsUpTo x)).mem (a + r.toNat) = s.reg r := by
  have hk : r.toNat < (s.regsUpTo x).length := by rw [State.regsUpTo_length]; omega
  rw [State.storeBytes_mem, Memory.read_writeBytes_same hm.1 a _ _ hk, State.regsUpTo_getElem]
  simp

/-- The word at the base of a stored block of two registers or more is `V[0]` then `V[1]`. -/
theorem State.fetched_storeBytes_regsUpTo {s : State} (hm : Memory.wf s.mem) {x : Reg}
    (hx : 1 ≤ x.toNat) :
    (s.storeBytes s.pc.toNat (s.regsUpTo x)).fetched = s.reg 0 ++ s.reg 1 := by
  have h0 := State.read_storeBytes_regsUpTo hm s.pc.toNat (x := x) (r := 0) (Nat.zero_le _)
  have h1 := State.read_storeBytes_regsUpTo hm s.pc.toNat (x := x) (r := 1) hx
  exact congrArg₂ wordOfBytes h0 h1

end Sys2Proof.Machine
end

section
/-! PROOFS. The statements about memory (20). -/

namespace Sys2Proof.Proofs

open Sys2Proof.Machine Sys2Proof.Claim

/-- Settles O25: the laws of a write, in the canonical form and at the two kinds of address. -/
theorem memoryReadsBackWhatWasWritten : Obligations.MemoryReadsBackWhatWasWritten :=
  fun m a b hm ha => ⟨Memory.wf_write hm ha b, Memory.read_write_same hm.1 a b,
    fun _ hne => Memory.read_write_other m b hne⟩

/-- Settles O45: the store changes only memory, so the next step fetches at the same pc, where the
block's first two bytes now stand. -/
theorem nextFetchSeesTheStore : Obligations.NextFetchSeesTheStore := by
  intro x s t i hm hx hlo hhi hpc hh he hd
  rw [exec_storeRegs_of_inRange hlo hhi, ← hpc] at he
  obtain rfl : s.storeBytes s.pc.toNat (s.regsUpTo x) = t := by simpa using he
  have hf : (s.storeBytes s.pc.toNat (s.regsUpTo x)).fetchable = true :=
    State.fetchable_iff.2 (by rw [State.storeBytes_pc, hpc]; omega)
  exact interpret_of_instr hh hf (State.fetched_storeBytes_regsUpTo hm hx ▸ hd)

end Sys2Proof.Proofs
end

section
/-! SUPPORT. Round trips of the decoder and the encoder, the fields that a row of the opcode table
fixes, and the sub-codes that each of the families 0, 8, E and F leaves out (30 R94, R95, R98). -/

namespace Sys2Proof

/-! ## A word from the fields that dispatch fixes and the fields that are operands -/

theorem ofA_of_fieldT {op : Word} {t : Nibble} (ht : fieldT op = t) :
    ofA t (fieldNNN op) = op := by
  rw [← ht, ofA_fields]

theorem ofXK_of_fields {op : Word} {t : Nibble} {kk : Byte} (ht : fieldT op = t)
    (hk : fieldKK op = kk) : ofXK t (fieldX op) kk = op := by
  rw [← ht, ← hk, ofXK_fields]

theorem ofNibbles_of_fields {op : Word} {t n : Nibble} (ht : fieldT op = t)
    (hn : fieldN op = n) : ofNibbles t (fieldX op) (fieldY op) n = op := by
  rw [← ht, ← hn, ofNibbles_fields]

/-! ## Decoding an encoded instruction (30 R94) -/

/-- The encoder puts each field where the decoder reads it: no dispatch, or the secondary dispatch
of one of the four families. -/
theorem decode_encode (i : Instr) : decode (encode i) = .instr i := by
  cases i with
  | clearScreen | retFromSub => simp [encode, decode, decodeZero]
  | mov | orReg | andReg | xorReg | add | sub | shr | subn | shl =>
    simp [encode, decode, decodeAlu]
  | skipKeyPressed | skipKeyNotPressed => simp [encode, decode, decodeKey]
  | getDelay | waitKey | setDelay | setSound | addIndex | fontIndex | storeBcd | storeRegs
  | loadRegs => simp [encode, decode, decodeMisc]
  | jmp | jsr | skipEqImm | skipNeImm | skipEqReg | movImm | addImm | skipNeReg | movIndex | jmpV0
  | rand | draw => simp [encode, decode]

/-! ## Encoding a decoded word (30 R97) -/

/-- One branch of a secondary dispatch: its test gives the sub-code that the encoder writes. -/
theorem encode_of_ite {c : Prop} [Decidable c] {op : Word} {i j : Instr} {d : Decoded}
    (hj : c → encode j = op) (hd : d = .instr i → encode i = op)
    (h : (if c then .instr j else d) = .instr i) : encode i = op := by
  split at h
  · cases h; exact hj ‹c›
  · exact hd h

theorem encode_of_decodeZero {op : Word} {i : Instr} (ht : fieldT op = 0x0) :
    decodeZero op = .instr i → encode i = op := by
  unfold decodeZero
  iterate 2 refine encode_of_ite (ofXK_of_fields ht) ?_
  nofun

theorem encode_of_decodeAlu {op : Word} {i : Instr} (ht : fieldT op = 0x8) :
    decodeAlu op = .instr i → encode i = op := by
  unfold decodeAlu
  iterate 9 refine encode_of_ite (ofNibbles_of_fields ht) ?_
  nofun

theorem encode_of_decodeKey {op : Word} {i : Instr} (ht : fieldT op = 0xE) :
    decodeKey op = .instr i → encode i = op := by
  unfold decodeKey
  iterate 2 refine encode_of_ite (ofXK_of_fields ht) ?_
  nofun

theorem encode_of_decodeMisc {op : Word} {i : Instr} (ht : fieldT op = 0xF) :
    decodeMisc op = .instr i → encode i = op := by
  unfold decodeMisc
  iterate 9 refine encode_of_ite (ofXK_of_fields ht) ?_
  nofun

/-- The sixteen values of the primary dispatch key. -/
theorem nibble_cases : ∀ t : Nibble, t = 0x0 ∨ t = 0x1 ∨ t = 0x2 ∨ t = 0x3 ∨ t = 0x4 ∨ t = 0x5 ∨
    t = 0x6 ∨ t = 0x7 ∨ t = 0x8 ∨ t = 0x9 ∨ t = 0xA ∨ t = 0xB ∨ t = 0xC ∨ t = 0xD ∨ t = 0xE ∨
    t = 0xF := by
  decide

/-- Each branch of the primary dispatch cuts the word along one format (30 R92). -/
theorem encode_of_decode {op : Word} {i : Instr} (h : decode op = .instr i) : encode i = op := by
  rcases nibble_cases (fieldT op) with
    ht | ht | ht | ht | ht | ht | ht | ht | ht | ht | ht | ht | ht | ht | ht | ht <;>
    rw [decode, ht] at h
  · exact encode_of_decodeZero ht h
  · cases h; exact ofA_of_fieldT ht
  · cases h; exact ofA_of_fieldT ht
  · cases h; exact ofXK_of_fields ht rfl
  · cases h; exact ofXK_of_fields ht rfl
  · cases h; exact ofNibbles_of_fields ht rfl
  · cases h; exact ofXK_of_fields ht rfl
  · cases h; exact ofXK_of_fields ht rfl
  · exact encode_of_decodeAlu ht h
  · cases h; exact ofNibbles_of_fields ht rfl
  · cases h; exact ofA_of_fieldT ht
  · cases h; exact ofA_of_fieldT ht
  · cases h; exact ofXK_of_fields ht rfl
  · cases h; exact ofNibbles_of_fields ht rfl
  · exact encode_of_decodeKey ht h
  · exact encode_of_decodeMisc ht h

/-! ## Invalid words (30 R98) -/

/-- One branch of a secondary dispatch: an invalid word fails its test. -/
theorem ite_invalid_iff {c : Prop} [Decidable c] {j : Instr} {d : Decoded} :
    (∃ why, (if c then .instr j else d) = .invalid why) ↔ ¬c ∧ ∃ why, d = .invalid why := by
  by_cases hc : c <;> simp [hc]

theorem decodeZero_invalid_iff (op : Word) :
    (∃ why, decodeZero op = .invalid why) ↔ fieldKK op ∉ [0xE0, 0xEE] := by
  simp [decodeZero, ite_invalid_iff]

theorem decodeAlu_invalid_iff (op : Word) :
    (∃ why, decodeAlu op = .invalid why) ↔
      fieldN op ∈ [0x8, 0x9, 0xA, 0xB, 0xC, 0xD, 0xF] := by
  have hcompl : ∀ n : Nibble, n ∈ [0x8, 0x9, 0xA, 0xB, 0xC, 0xD, 0xF] ↔
      n ∉ [0x0, 0x1, 0x2, 0x3, 0x4, 0x5, 0x6, 0x7, 0xE] := by decide
  rw [hcompl]
  simp [decodeAlu, ite_invalid_iff]

theorem decodeKey_invalid_iff (op : Word) :
    (∃ why, decodeKey op = .invalid why) ↔ fieldKK op ∉ [0x9E, 0xA1] := by
  simp [decodeKey, ite_invalid_iff]

theorem decodeMisc_invalid_iff (op : Word) :
    (∃ why, decodeMisc op = .invalid why) ↔
      fieldKK op ∉ [0x07, 0x0A, 0x15, 0x18, 0x1E, 0x29, 0x33, 0x55, 0x65] := by
  simp [decodeMisc, ite_invalid_iff]

/-- The primary dispatch rejects nothing itself: an invalid word is one that the secondary dispatch
of its family rejects. -/
theorem decode_invalid_iff (op : Word) :
    (∃ why, decode op = .invalid why) ↔
      (fieldT op = 0x0 ∧ fieldKK op ∉ [0xE0, 0xEE]) ∨
      (fieldT op = 0x8 ∧ fieldN op ∈ [0x8, 0x9, 0xA, 0xB, 0xC, 0xD, 0xF]) ∨
      (fieldT op = 0xE ∧ fieldKK op ∉ [0x9E, 0xA1]) ∨
      (fieldT op = 0xF ∧
        fieldKK op ∉ [0x07, 0x0A, 0x15, 0x18, 0x1E, 0x29, 0x33, 0x55, 0x65]) := by
  rw [← decodeZero_invalid_iff, ← decodeAlu_invalid_iff, ← decodeKey_invalid_iff,
    ← decodeMisc_invalid_iff]
  rcases nibble_cases (fieldT op) with
    ht | ht | ht | ht | ht | ht | ht | ht | ht | ht | ht | ht | ht | ht | ht | ht <;>
    simp [decode, ht]

/-! ## Rows of the opcode table (30 R95) -/

theorem OpcodeRow.hits_iff {r : OpcodeRow} {op : Word} :
    r.hits op = true ↔ op &&& r.mask = r.pattern := by
  simp [OpcodeRow.hits]

/-- A field of the word that the row's mask covers is that field of the row's pattern. -/
theorem OpcodeRow.extractLsb'_of_hits {r : OpcodeRow} {op : Word} {lo len : Nat}
    (h : r.hits op = true) (hm : r.mask.extractLsb' lo len = BitVec.allOnes len) :
    op.extractLsb' lo len = r.pattern.extractLsb' lo len := by
  rw [← OpcodeRow.hits_iff.1 h, BitVec.extractLsb'_and, hm, BitVec.and_allOnes]

/-- Two rows that a word hits agree where both masks cover. -/
theorem OpcodeRow.pattern_and_mask_comm_of_hits {r r' : OpcodeRow} {op : Word}
    (h : r.hits op = true) (h' : r'.hits op = true) :
    r.pattern &&& r'.mask = r'.pattern &&& r.mask := by
  rw [← OpcodeRow.hits_iff.1 h, ← OpcodeRow.hits_iff.1 h', BitVec.and_assoc, BitVec.and_assoc,
    BitVec.and_comm r.mask]

/-- Different rows of the table disagree where both masks cover. -/
theorem eq_of_pattern_and_mask_comm : ∀ r ∈ opcodeTable, ∀ r' ∈ opcodeTable,
    r.pattern &&& r'.mask = r'.pattern &&& r.mask → r = r' := by
  decide

/-- A word hits one row of the table at most. -/
theorem eq_of_hits {r r' : OpcodeRow} {op : Word} (hr : r ∈ opcodeTable) (hr' : r' ∈ opcodeTable)
    (h : r.hits op = true) (h' : r'.hits op = true) : r = r' :=
  eq_of_pattern_and_mask_comm r hr r' hr' (OpcodeRow.pattern_and_mask_comm_of_hits h h')

theorem opcodeTable_nodup : opcodeTable.Nodup := by decide

theorem opcodeTable_disjoint :
    opcodeTable.Pairwise fun r r' => ∀ op : Word, ¬(r.hits op = true ∧ r'.hits op = true) :=
  opcodeTable_nodup.pairwise_of_forall_ne fun _ hr _ hr' hne _ ⟨h, h'⟩ =>
    hne (eq_of_hits hr hr' h h')

theorem tableRow_mem (i : Instr) : tableRow i ∈ opcodeTable := by
  cases i <;> exact List.mem_of_elem_eq_true rfl

open Laws.TableRow in
/-- The law of each instruction that its encoding matches its row, for all of them. -/
theorem hits_encode (i : Instr) : (tableRow i).hits (encode i) = true :=
  OpcodeRow.hits_iff.2 <| show Statement i from
    i.casesOn clearScreen retFromSub jmp jsr skipEqImm skipNeImm skipEqReg movImm addImm mov orReg
      andReg xorReg add sub shr subn shl skipNeReg movIndex jmpV0 rand draw skipKeyPressed
      skipKeyNotPressed getDelay waitKey setDelay setSound addIndex fontIndex storeBcd storeRegs
      loadRegs

/-- The rows of the families 0, E and F fix a sub-code of a byte, those of family 8 one of a
nibble, and none is a sub-code that the secondary dispatch rejects. -/
theorem subCode_of_mem_opcodeTable :
    ∀ r ∈ opcodeTable, fieldT r.mask = 0xF ∧
      (fieldT r.pattern = 0x0 → fieldKK r.mask = 0xFF ∧ fieldKK r.pattern ∈ [0xE0, 0xEE]) ∧
      (fieldT r.pattern = 0x8 → fieldN r.mask = 0xF ∧
        fieldN r.pattern ∉ [0x8, 0x9, 0xA, 0xB, 0xC, 0xD, 0xF]) ∧
      (fieldT r.pattern = 0xE → fieldKK r.mask = 0xFF ∧ fieldKK r.pattern ∈ [0x9E, 0xA1]) ∧
      (fieldT r.pattern = 0xF → fieldKK r.mask = 0xFF ∧
        fieldKK r.pattern ∈ [0x07, 0x0A, 0x15, 0x18, 0x1E, 0x29, 0x33, 0x55, 0x65]) := by
  decide

/-- A word that hits a row has a sub-code that its family knows, so it is no invalid word. -/
theorem decode_ne_invalid_of_hits {r : OpcodeRow} {op : Word} (hr : r ∈ opcodeTable)
    (h : r.hits op = true) (why : InvalidReason) : decode op ≠ .invalid why := by
  intro hd
  obtain ⟨hm, hzero, halu, hkey, hmisc⟩ := subCode_of_mem_opcodeTable r hr
  have hT : fieldT op = fieldT r.pattern := OpcodeRow.extractLsb'_of_hits h hm
  have hN (hm : fieldN r.mask = 0xF) : fieldN op = fieldN r.pattern :=
    OpcodeRow.extractLsb'_of_hits h hm
  have hKK (hm : fieldKK r.mask = 0xFF) : fieldKK op = fieldKK r.pattern :=
    OpcodeRow.extractLsb'_of_hits h hm
  rcases (decode_invalid_iff op).1 ⟨why, hd⟩ with ⟨ht, hn⟩ | ⟨ht, hn⟩ | ⟨ht, hn⟩ | ⟨ht, hn⟩
  · obtain ⟨hm, hk⟩ := hzero (hT ▸ ht)
    exact hn (hKK hm ▸ hk)
  · obtain ⟨hm, hk⟩ := halu (hT ▸ ht)
    exact hk (hN hm ▸ hn)
  · obtain ⟨hm, hk⟩ := hkey (hT ▸ ht)
    exact hn (hKK hm ▸ hk)
  · obtain ⟨hm, hk⟩ := hmisc (hT ▸ ht)
    exact hn (hKK hm ▸ hk)

theorem hits_of_decode {op : Word} {i : Instr} (h : decode op = .instr i) :
    (tableRow i).hits op = true :=
  encode_of_decode h ▸ hits_encode i

/-- The row of the decoded instruction is hit too, and a word hits one row at most. -/
theorem decode_of_hits {op : Word} {r : OpcodeRow} (hr : r ∈ opcodeTable)
    (h : r.hits op = true) : ∃ i, decode op = .instr i ∧ tableRow i = r := by
  cases hd : decode op with
  | instr i => exact ⟨i, rfl, eq_of_hits (tableRow_mem i) hr (hits_of_decode hd) h⟩
  | invalid why => exact absurd hd (decode_ne_invalid_of_hits hr h why)

end Sys2Proof
end

section
/-! PROOFS. The statements about the encoding (30). -/

namespace Sys2Proof.Proofs

/-- Settles O1: the fields of a built word are the fields it was built from. -/
theorem decodeOfEncodeIsTheInstruction : Obligations.DecodeOfEncodeIsTheInstruction :=
  decode_encode

/-- Settles O2: the tests on the way to a branch of the decoder fix the fields that are no
operands. -/
theorem encodeOfDecodeIsTheWord : Obligations.EncodeOfDecodeIsTheWord :=
  fun _ _ => encode_of_decode

/-- Settles O3: a decoded word is its instruction's encoding, which hits its row, and the rows are
disjoint and leave out every invalid word. -/
theorem decoderFollowsTheOpcodeTable : Obligations.DecoderFollowsTheOpcodeTable :=
  ⟨fun _ i h => ⟨hits_of_decode h, tableRow_mem i⟩, fun _ _ => decode_of_hits, rfl,
    opcodeTable_disjoint⟩

/-- Settles O4: the sub-codes that the four secondary dispatches reject, as numbers. -/
theorem invalidWordsAreTheFourFamilies : Obligations.InvalidWordsAreTheFourFamilies := by
  intro op
  rw [decode_invalid_iff]
  simp only [← BitVec.toNat_inj, fieldT_toNat, fieldN_toNat, fieldKK_toNat, List.mem_cons,
    List.not_mem_nil, BitVec.ofNat_eq_ofNat, BitVec.toNat_ofNat, Nat.reducePow, Nat.reduceMod,
    not_or, or_false, ne_eq]

/-- Settles O5: the decoder evaluated on each word. -/
theorem sampleWordsDecode : Obligations.SampleWordsDecode := by
  unfold Obligations.SampleWordsDecode
  decide

end Sys2Proof.Proofs
end

section
/-! SUPPORT. Every way `Step()` ends: refused, silent, or with one error taken; and the result it
returns to the host (40 R120 to R129). -/

namespace Sys2Proof.Machine

open Sys2Proof.Safety (recordable)

/-! ## The answer of `Step()` (40 R120, R126, R127) -/

theorem State.not_fetchable_iff {s : State} : s.fetchable = false ↔ 0xFFF < s.pc.toNat + 1 := by
  simp [State.fetchable]

theorem interpret_of_halted {s : State} (hh : s.status.halted = true) :
    interpret s = .fault .halted := by
  simp [interpret, hh]

/-- `Step()` on a live core is taken: fetch fault, decode error, or a meaning, which always answers
a next state. -/
theorem interpret_next_of_live {s : State} (hh : s.status.halted = false) :
    ∃ t, interpret s = .next t := by
  cases hf : s.fetchable with
  | false => exact ⟨_, interpret_of_not_fetchable hh hf⟩
  | true =>
    cases hd : decode s.fetched with
    | invalid why => exact ⟨_, interpret_of_invalid hh hf hd⟩
    | instr i =>
      obtain ⟨t, ht, -⟩ := exec_cases i s.advance
      exact ⟨t, (interpret_of_instr hh hf hd).trans ht⟩

/-- A step that is not refused leaves `STATUS` as the fetch cleared it, or takes one error: with pc
on the state before the fetch, or with the fetched word on the advanced state. -/
theorem interpret_silent_or_error {s t : State} (h : interpret s = .next t) :
    t.status = s.advance.status ∨
    (s.fetchable = false ∧ t = s.takeError .memoryRangeFault s.pc) ∨
    (s.fetchable = true ∧ ∃ c, recordable c.code ∧ t = s.advance.takeError c s.fetched) := by
  obtain ⟨-, hfault | ⟨hf, -, rfl⟩ | ⟨hf, i, hi, he⟩⟩ := interpret_cases h
  · exact .inr (.inl hfault)
  · exact .inr (.inr ⟨hf, .decodeError, by decide, rfl⟩)
  · obtain ⟨t', ht', hcase⟩ := exec_cases i s.advance
    obtain rfl : t' = t := by simpa [ht'] using he
    rcases hcase with hst | ⟨c, ht, hc⟩
    · exact .inl hst
    · exact .inr (.inr ⟨hf, c, hc.recordable, encode_of_decode hi ▸ ht⟩)

/-! ## The `STATUS` of a taken error (60 R250 to R254) -/

theorem Cause.code_mem_of_fatal {c : Cause} (h : c.fatal = true) :
    c.code ∈ [3#4, 4#4, 7#4, 8#4] := by
  revert h; cases c <;> decide

theorem Cause.code_mem_of_recoverable {c : Cause} (hc : recordable c.code)
    (h : c.fatal = false) : c.code ∈ [1#4, 5#4, 9#4] := by
  revert hc h; cases c <;> decide

/-- A recordable error taken on a live core is one report or one raise. -/
theorem State.takeError_report_or_raise {s : State} {c : Cause} (info : Word)
    (hh : s.status.halted = false) (hc : recordable c.code) :
    (∃ d w, d ∈ [1#4, 5#4, 9#4] ∧
      (s.takeError c info).status = ⟨false, d, w, s.status.seen ||| (1#10 <<< d.toNat)⟩) ∨
    (∃ d w, d ∈ [3#4, 4#4, 7#4, 8#4] ∧
      (s.takeError c info).status = ⟨true, d, w, s.status.seen ||| (1#10 <<< d.toNat)⟩) := by
  cases hf : c.fatal with
  | false =>
    exact .inl ⟨c.code, info, Cause.code_mem_of_recoverable hc hf, by simp [hh, hf, seenBit]⟩
  | true => exact .inr ⟨c.code, info, Cause.code_mem_of_fatal hf, by simp [hf, seenBit]⟩

/-! ## The result of `Step()` (40 R129) -/

theorem stepResult_of_halted {s : State} (hh : s.status.halted = true) :
    stepResult s = some .halted := by
  simp [stepResult, interpret_of_halted hh]

theorem stepResult_of_next {s t : State} (h : interpret s = .next t) :
    stepResult s = some t.status.result := by
  simp [stepResult, h]

/-- An error taken on a live core is the result of the step, by its class. -/
theorem State.result_takeError {s : State} {c : Cause} {info : Word}
    (hh : s.status.halted = false) :
    (s.takeError c info).status.result =
      if c.fatal then .fatal c.code info else .recoverable c.code info := by
  have hcode : c.code ≠ 0#4 := c.code_ne_zero
  simp [Status.result, hcode, hh]

/-! ## The transactions on a halted core (40 R126, 60 R263) -/

theorem State.load_status (s : State) (bytes : List Byte) :
    (s.load bytes).2.status = s.status := by
  unfold State.load
  split <;> rfl

/-- Every transaction but reset that a halted core takes leaves `STATUS` as it was. -/
theorem act_status_of_halted {s t : State} {e : Event} (hh : s.status.halted = true)
    (he : e ≠ .reset) (h : act e s = .next t) : t.status = s.status := by
  cases e with
  | reset => exact absurd rfl he
  | load bytes => cases h; exact s.load_status bytes
  | tickDelay | tickSound => cases h; rfl
  | step => cases (interpret_of_halted hh).symm.trans h

end Sys2Proof.Machine
end

section
/-! PROOFS. The statements about the step cycle (40). -/

namespace Sys2Proof.Proofs

open Sys2Proof.Machine Sys2Proof.Claim

/-- Settles O10: the fetch clears cause and info, and at most one recordable error is taken, on a
core that is not halted. -/
theorem stepLeavesOneOfThreeStatuses : Obligations.StepLeavesOneOfThreeStatuses := by
  intro s t h
  have hh := (interpret_cases h).1
  rcases interpret_silent_or_error h with hst | ⟨-, rfl⟩ | ⟨-, c, hc, rfl⟩
  · exact .inl ⟨hst, hst ▸ hh⟩
  · exact .inr (State.takeError_report_or_raise s.pc hh (by decide))
  · exact .inr (State.takeError_report_or_raise (s := s.advance) s.fetched hh hc)

/-- Settles O11: a step that ends silently has cause 0, and a taken error writes `STATUS` only. -/
theorem errorsArePrecise : Obligations.ErrorsArePrecise := by
  intro s t h hcause
  rcases interpret_silent_or_error h with hst | ⟨hf, rfl⟩ | ⟨hf, c, -, rfl⟩
  · exact absurd (congrArg Status.cause hst) hcause
  · exact .inl ⟨State.not_fetchable_iff.1 hf, rfl, rfl⟩
  · exact .inr ⟨State.fetchable_iff.1 hf, rfl, rfl⟩

/-- Settles O13: the ticks do not halt the core, and `Step()` on a live core is taken. -/
theorem everyLiveStepIsTaken : Obligations.EveryLiveStepIsTaken :=
  fun s hh => interpret_next_of_live (s := s.passTime) hh

/-- Settles O6, from the clause of `interpret` that applies and the result of the `STATUS` it
leaves. -/
theorem interpreterCycle : Obligations.InterpreterCycle := by
  intro s
  refine ⟨?_, ?_, ?_⟩
  · exact fun hh => ⟨interpret_of_halted hh, stepResult_of_halted hh⟩
  · intro hh hpc
    have h := interpret_of_not_fetchable hh (State.not_fetchable_iff.2 hpc)
    exact ⟨h, (stepResult_of_next h).trans (congrArg some (State.result_takeError hh))⟩
  · rintro hh hpc op rfl
    have hf : s.fetchable = true := State.fetchable_iff.2 hpc
    constructor
    · intro why hd
      have h := interpret_of_invalid hh hf hd
      exact ⟨h, (stepResult_of_next h).trans
        (congrArg some (State.result_takeError (s := s.advance) hh))⟩
    · exact fun i hd => ⟨interpret_of_instr hh hf hd, fun _ => stepResult_of_next⟩

/-- Settles O7: the ticks change neither `STATUS` nor what is fetched, and the advanced state is
the one written out. -/
theorem stepRunsTheDecodedInstruction : Obligations.StepRunsTheDecodedInstruction :=
  fun s _ hh hpc hd =>
    interpret_of_instr (s := s.passTime) hh (State.fetchable_iff.2 hpc) hd

/-- Settles O8, with the values that the two timers have after their ticks. -/
theorem stepIsTicksThenInterpret : Obligations.StepIsTicksThenInterpret :=
  fun s => ⟨s.passTime.dt, s.passTime.st, rfl, tickMany_toNat _ _, tickMany_toNat _ _⟩

/-- Settles O9: a tick and a load leave `STATUS`, and `Step()` is refused. -/
theorem onlyResetLeavesHalted : Obligations.OnlyResetLeavesHalted := by
  intro s hh
  refine ⟨interpret_of_halted (s := s.passTime) hh, ⟨_, rfl, rfl, tickValue_toNat _⟩,
    ⟨_, rfl, rfl, tickValue_toNat _⟩, fun e t h he => ?_, ?_⟩
  · rwa [act_status_of_halted hh he h]
  · rintro t ⟨⟩
    rfl

end Sys2Proof.Proofs
end

section
/-! SUPPORT. The checks of a call and of a return, jump targets as numbers, and what a return finds
on the stack after the calls nested above it have come back (10 R30 to R32, 41 R140 to R150). -/

namespace Sys2Proof.Machine

open Sys2Proof.Claim (recorded callAll returnAll)

/-! ## The two answers of a checked instruction (40 R124) -/

theorem exec_of_checkOf_none {i : Instr} {s : State} (h : checkOf i s = none) :
    exec i s = .next (effectOf i s) := by
  rw [exec_eq_checkThen, h, State.checkThen_none]

theorem exec_of_checkOf_some {i : Instr} {s : State} {c : Cause} (h : checkOf i s = some c) :
    exec i s = .next (s.takeError c (encode i)) := by
  rw [exec_eq_checkThen, h, State.checkThen_some]

/-! ## Jump targets and skips (41 R140, R141, R144) -/

theorem addrOf_toNat (nnn : Addr) : (addrOf nnn).toNat = nnn.toNat :=
  BitVec.toNat_setWidth_of_le (by decide)

theorem wide_toNat (b : Byte) : (wide b).toNat = b.toNat :=
  BitVec.toNat_setWidth_of_le (by decide)

/-- A 12-bit address plus a byte does not reach 2^16. -/
theorem addrOf_add_wide_toNat (nnn : Addr) (b : Byte) :
    (addrOf nnn + wide b).toNat = nnn.toNat + b.toNat := by
  have := nnn.isLt
  have := b.isLt
  rw [BitVec.toNat_add, addrOf_toNat, wide_toNat]
  omega

theorem State.skipIf_beq (s : State) (a b : Byte) :
    s.skipIf (a == b) = { s with pc := if a = b then s.pc + 2 else s.pc } := by
  simp [State.skipIf, State.setPc]

theorem State.skipIf_bne (s : State) (a b : Byte) :
    s.skipIf (a != b) = { s with pc := if a = b then s.pc else s.pc + 2 } := by
  simp [State.skipIf, State.setPc]

/-! ## One call and one return (41 R142, R143) -/

/-- The entry pushed stands at the old depth. -/
theorem State.push_stack_same (s : State) (w : Word) (h : s.sp.val < Config.stackDepth) :
    (s.push w).stack[s.sp.val] = w := by
  rw [State.push_of_lt s w h]
  exact Vector.getElem_set_self _

theorem exec_jsr_of_lt {s : State} (nnn : Addr) (h : s.sp.val < 16) :
    exec (.jsr nnn) s = .next ((s.push s.pc).setPc (addrOf nnn)) :=
  exec_of_checkOf_none (State.checkPush_eq_none.2 h)

theorem exec_retFromSub_of_pos {s : State} (z : Nibble) (h : 0 < s.sp.val) :
    exec (.retFromSub z) s = .next (s.drop.setPc s.top) :=
  exec_of_checkOf_none (State.checkPop_eq_none.2 h)

theorem exec_jsr_of_full {s : State} (nnn : Addr) (h : s.sp.val = 16) :
    exec (.jsr nnn) s = .next (recorded s 3 (encode (.jsr nnn)) true) :=
  exec_of_checkOf_some (i := .jsr nnn) (State.checkPush_eq_some.2 ⟨rfl, h⟩)

theorem exec_retFromSub_of_empty {s : State} (z : Nibble) (h : s.sp.val = 0) :
    exec (.retFromSub z) s = .next (recorded s 4 (encode (.retFromSub z)) true) :=
  exec_of_checkOf_some (i := .retFromSub z) (State.checkPop_eq_some.2 ⟨rfl, h⟩)

/-! ## Nested calls and returns (41 R150) -/

/-- The same depth and the same return addresses below it: the calls open in both states are the
same. -/
def SameOpenCalls (s u : State) : Prop :=
  u.sp = s.sp ∧ ∀ k : Fin Config.stackDepth, k.val < s.sp.val → u.stack[k] = s.stack[k]

theorem SameOpenCalls.refl (s : State) : SameOpenCalls s s := ⟨rfl, fun _ _ => rfl⟩

/-- With the calls open that a push of `w` left, a return comes back to `w` and to the calls open
before the push. -/
theorem SameOpenCalls.return_of_push {s u : State} {w : Word} (hs : s.sp.val < 16)
    (h : SameOpenCalls (s.push w) u) (z : Nibble) :
    ∃ r, exec (.retFromSub z) u = .next r ∧ r.pc = w ∧ SameOpenCalls s r := by
  obtain ⟨hsp, hstack⟩ := h
  have hdepth : u.sp.val = s.sp.val + 1 := by rw [hsp, State.push_sp_val s w hs]
  have hlive (k : Fin Config.stackDepth) (hk : k.val < s.sp.val + 1) :
      u.stack[k] = (s.push w).stack[k] :=
    hstack k (by rwa [State.push_sp_val s w hs])
  refine ⟨_, exec_retFromSub_of_pos z (by omega), ?_, ?_, fun k hk => ?_⟩
  · have htop := hlive ⟨s.sp.val, hs⟩ (Nat.lt_succ_self _)
    simpa [State.top, hdepth, State.push_stack_same s w hs] using htop
  · exact Fin.ext (by simp [hdepth])
  · have hother := State.push_stack_other s w k.val k.isLt (by omega)
    exact (hlive k (by omega)).trans hother

theorem returnAll_succ_of_exec {t r : State} (n : Nat)
    (h : exec (.retFromSub 0) t = .next r) :
    returnAll (n + 1) t = (returnAll n r).map fun q => (r.pc :: q.1, q.2) := by
  rw [returnAll, h]

/-- One more return after `n` of them. -/
theorem returnAll_succ_of_returnAll {n : Nat} {t u r : State} {ws : List Word}
    (h : returnAll n t = some (ws, u)) (hr : exec (.retFromSub 0) u = .next r) :
    returnAll (n + 1) t = some (ws ++ [r.pc], r) := by
  induction n generalizing t ws with
  | zero =>
    cases h
    exact returnAll_succ_of_exec 0 hr
  | succ n ih =>
    obtain ⟨t', he, -⟩ := exec_cases (.retFromSub 0) t
    rw [returnAll_succ_of_exec n he, Option.map_eq_some_iff] at h
    obtain ⟨⟨ws', u'⟩, h', heq⟩ := h
    cases heq
    rw [returnAll_succ_of_exec (n + 1) he, ih h']
    rfl

theorem callAll_cons_of_lt {s : State} (p : Word) (nnn : Addr) (cs : List (Word × Addr))
    (h : s.sp.val < 16) :
    callAll ((p, nnn) :: cs) s = callAll cs (((s.setPc p).push p).setPc (addrOf nnn)) := by
  rw [callAll, exec_jsr_of_lt (s := { s with pc := p }) nnn h]
  rfl

/-- The calls nested above the first come back to the calls open after it; one more return then
comes back from the first. -/
theorem callAll_returnAll (cs : List (Word × Addr)) (s : State) (h : s.sp.val + cs.length ≤ 16) :
    ∃ t u, callAll cs s = some t ∧ t.sp.val = s.sp.val + cs.length ∧
      returnAll cs.length t = some ((cs.map Prod.fst).reverse, u) ∧ SameOpenCalls s u := by
  induction cs generalizing s with
  | nil => exact ⟨s, s, rfl, rfl, rfl, SameOpenCalls.refl s⟩
  | cons c cs ih =>
    obtain ⟨p, nnn⟩ := c
    rw [List.length_cons] at h
    have hlt : s.sp.val < 16 := by omega
    have hsp := State.push_sp_val (s.setPc p) p hlt
    rw [State.setPc_sp] at hsp
    obtain ⟨t, u, hcall, hdepth, hret, hopen⟩ :=
      ih (((s.setPc p).push p).setPc (addrOf nnn)) (by rw [State.setPc_sp, hsp]; omega)
    obtain ⟨r, hr, hpc, hback⟩ := SameOpenCalls.return_of_push (s := s.setPc p) hlt hopen 0
    refine ⟨t, r, (callAll_cons_of_lt p nnn cs hlt).trans hcall, ?_, ?_, hback⟩
    · rw [hdepth, State.setPc_sp, hsp, List.length_cons]; omega
    · rw [List.length_cons, returnAll_succ_of_returnAll hret hr, hpc, List.map_cons,
        List.reverse_cons]

end Sys2Proof.Machine
end

section
/-! PROOFS. The statements about control transfer (41). -/

namespace Sys2Proof.Proofs

open Sys2Proof.Machine Sys2Proof.Claim

/-- Settles O29, by induction on the calls: each return finds open the calls that its own call
left. -/
theorem callsAndReturnsAreLastInFirstOut : Obligations.CallsAndReturnsAreLastInFirstOut := by
  intro cs s h
  obtain ⟨t, u, hcall, hdepth, hret, hsp, -⟩ := callAll_returnAll cs s h
  exact ⟨t, u, hcall, hdepth, hret, hsp⟩

/-- Settles O26: `jmp` has no check, and its effect is one write of pc. -/
theorem jumpSetsPc : Obligations.JumpSetsPc :=
  fun nnn _ => ⟨ofA_toNat 0x1 nnn, _, rfl, addrOf_toNat nnn, rfl⟩

/-- Settles O27, from the check of a push and what a push leaves on the stack. -/
theorem callPushesTheReturnAddress : Obligations.CallPushesTheReturnAddress := by
  intro nnn s
  refine ⟨ofA_toNat 0x2 nnn, fun h => ?_, exec_jsr_of_full nnn⟩
  refine ⟨_, exec_jsr_of_lt nnn h, addrOf_toNat nnn, State.push_sp_val s s.pc h,
    State.push_stack_same s s.pc h, fun k hk => State.push_stack_other s s.pc k.val k.isLt hk, ?_⟩
  rw [State.push_of_lt s s.pc h]
  rfl

/-- Settles O28, from the check of a pop; the word's ignored bits reach only the recorded info. -/
theorem returnPopsTheNewestAddress : Obligations.ReturnPopsTheNewestAddress := by
  intro z s
  refine ⟨?_, fun k hk => ?_, exec_retFromSub_of_empty z⟩
  · simp [encode, ofXK_toNat]
  · refine ⟨_, exec_retFromSub_of_pos z (by omega), ?_, ?_, rfl⟩
    · simp [State.top, hk]
    · simp [hk]

/-- Settles O30: the exact sum fits pc, so the 16-bit addition does not wrap. -/
theorem computedJumpAddsV0 : Obligations.ComputedJumpAddsV0 :=
  fun nnn s => ⟨ofA_toNat 0xB nnn, _, rfl, addrOf_add_wide_toNat nnn (s.reg 0), rfl⟩

/-- Settles O31: each skip is `skipIf` of its comparison, and the ignored bits are in its word
only. -/
theorem skipsCompareAndSkip : Obligations.SkipsCompareAndSkip := by
  intro x y kk z s
  exact ⟨congrArg Host.Outcome.next (s.skipIf_beq (s.reg x) kk),
    congrArg Host.Outcome.next (s.skipIf_bne (s.reg x) kk),
    congrArg Host.Outcome.next (s.skipIf_beq (s.reg x) (s.reg y)),
    congrArg Host.Outcome.next (s.skipIf_bne (s.reg x) (s.reg y)),
    ofXK_toNat 0x3 x kk, ofXK_toNat 0x4 x kk, ofNibbles_toNat 0x5 x y z,
    ofNibbles_toNat 0x9 x y z⟩

end Sys2Proof.Proofs
end

section
/-! SUPPORT. What an instruction that writes one register answers, and what one that writes a result
and then a flag answers (10 R22, R24, 42 R172, R173). -/

namespace Sys2Proof.Machine

open Sys2Proof.Claim (OnlyRegs)

/-- The words of family 8, by their low nibble. -/
theorem aluWord_toNat (x y : Reg) (n : Nibble) :
    (ofNibbles 0x8 x y n).toNat = 0x8000 + n.toNat + 256 * x.toNat + 16 * y.toNat := by
  rw [ofNibbles_toNat, show (0x8 : Nibble).toNat = 8 from rfl]
  omega

/-! ## One register written (42 R172) -/

theorem onlyRegs_writeReg (s : State) (x : Reg) (raw : Int) : OnlyRegs [x] s (s.writeReg x raw) :=
  ⟨fun _ hr => State.reg_writeReg_ne s raw (by simpa using hr), fun _ => rfl, rfl⟩

/-- A value that fits is written unreduced. -/
theorem exec_of_writeReg_lt {i : Instr} {s : State} {x : Reg} {n : Nat}
    (he : exec i s = .next (s.writeReg x n)) (hn : n < 256) :
    ∃ t, exec i s = .next t ∧ (t.reg x).toNat = n ∧ t.ovf = false ∧ OnlyRegs [x] s t := by
  refine ⟨_, he, ?_, ovf_of_byte n hn, onlyRegs_writeReg s x n⟩
  have hmod := toNat_ofInt8 n
  rw [State.reg_writeReg_same]
  omega

theorem exec_of_writeReg_byte {i : Instr} {s : State} {x : Reg} {b : Byte}
    (he : exec i s = .next (s.writeReg x b.toNat)) :
    ∃ t, exec i s = .next t ∧ t.reg x = b ∧ t.ovf = false ∧ OnlyRegs [x] s t := by
  obtain ⟨t, ht, hreg, hrest⟩ := exec_of_writeReg_lt he b.isLt
  exact ⟨t, ht, BitVec.eq_of_toNat_eq hreg, hrest⟩

/-- A byte written is known from its bits. -/
theorem exec_of_writeReg_bits {i : Instr} {s : State} {x : Reg} {b : Byte} {f : Nat → Bool}
    (he : exec i s = .next (s.writeReg x b.toNat)) (hf : ∀ k, b.getLsbD k = f k) :
    ∃ t, exec i s = .next t ∧ OnlyRegs [x] s t ∧ t.ovf = false ∧
      ∀ k, (t.reg x).getLsbD k = f k := by
  obtain ⟨t, ht, hreg, hovf, honly⟩ := exec_of_writeReg_byte he
  exact ⟨t, ht, honly, hovf, fun k => by rw [hreg, hf]⟩

/-! ## A result, then a flag in VF (42 R173, R174) -/

theorem onlyRegs_writeThenFlag (s : State) (x : Reg) (raw : Int) (flag : Bool) :
    OnlyRegs [x, vf] s (s.writeThenFlag x raw flag) := by
  refine ⟨fun r hr => ?_, fun _ => rfl, rfl⟩
  obtain ⟨hx, hf⟩ : r ≠ x ∧ r ≠ vf := by simpa using hr
  exact State.reg_writeReg_vf_ne s raw _ hx hf

/-- The flag is written last, so VF holds it whatever `x` is. -/
theorem State.reg_vf_writeThenFlag_toNat (s : State) (x : Reg) (raw : Int) (flag : Bool) :
    ((s.writeThenFlag x raw flag).reg vf).toNat = flag.toNat := by
  rw [State.writeThenFlag_eq, State.reg_writeReg_same]
  cases flag <;> rfl

theorem State.reg_writeThenFlag_toNat (s : State) {x : Reg} (raw : Int) (flag : Bool)
    (hx : x ≠ vf) : (((s.writeThenFlag x raw flag).reg x).toNat : Int) = raw % 256 := by
  rw [State.writeThenFlag_eq, State.reg_writeReg_ne _ _ hx, State.reg_writeReg_same, toNat_ofInt8]

theorem State.writeCarry_eq_writeThenFlag (s : State) (x : Reg) (raw : Int) :
    s.writeCarry x raw = s.writeThenFlag x raw (decide (raw < 0 ∨ 256 ≤ raw)) := rfl

theorem State.writeNoBorrow_eq_writeThenFlag (s : State) (x : Reg) (raw : Int) :
    s.writeNoBorrow x raw = s.writeThenFlag x raw (decide (¬(raw < 0 ∨ 256 ≤ raw))) := by
  have flagValue_not (b : Bool) : 1 - flagValue b = flagValue !b := by cases b <;> rfl
  rw [State.writeNoBorrow_eq, State.writeThenFlag_eq, flagValue_not, decide_not]

/-- What an instruction answers that writes a result and then a flag: VF is the flag, and the result
stands in `V[x]` when that is another register. -/
theorem exec_of_writeThenFlag {i : Instr} {s : State} {x : Reg} {raw : Int} {flag : Bool}
    {r f : Nat} (he : exec i s = .next (s.writeThenFlag x raw flag)) (hf : flag.toNat = f)
    (hr : raw % 256 = r) :
    ∃ t, exec i s = .next t ∧ (t.reg vf).toNat = f ∧ (x ≠ vf → (t.reg x).toNat = r) ∧
      t.ovf = false ∧ OnlyRegs [x, vf] s t := by
  refine ⟨_, he, ?_, fun hx => ?_, ovf_flagValue flag, onlyRegs_writeThenFlag s x raw flag⟩
  · rw [State.reg_vf_writeThenFlag_toNat, hf]
  · have hres := State.reg_writeThenFlag_toNat s raw flag hx
    omega

/-! ## The flags as numbers -/

theorem toNat_decide_eq_ite {p q : Prop} [Decidable p] [Decidable q] (h : p ↔ q) :
    (decide p).toNat = if q then 1 else 0 := by
  by_cases hq : q <;> simp [h, hq]

/-- A subtraction, with its two operands as bytes: VF is 1 exactly when the result fell in range. -/
theorem exec_of_writeNoBorrow_sub {i : Instr} {s : State} {x : Reg} {a b : Byte}
    (he : exec i s = .next (s.writeNoBorrow x ((a.toNat : Int) - b.toNat))) :
    ∃ t, exec i s = .next t ∧ (t.reg vf).toNat = (if b.toNat ≤ a.toNat then 1 else 0) ∧
      (x ≠ vf → (t.reg x).toNat = (a.toNat + 256 - b.toNat) % 256) ∧
      t.ovf = false ∧ OnlyRegs [x, vf] s t := by
  have ha := a.isLt
  have hb := b.isLt
  rw [State.writeNoBorrow_eq_writeThenFlag] at he
  exact exec_of_writeThenFlag he (toNat_decide_eq_ite (by omega)) (by omega)

end Sys2Proof.Machine
end

section
/-! PROOFS. The statements about registers and the ALU (42). -/

namespace Sys2Proof.Proofs

open Sys2Proof.Machine Sys2Proof.Claim

/-- Settles O32: both moves write a byte as it is. -/
theorem movesCopyTheirSource : Obligations.MovesCopyTheirSource :=
  fun x y kk _ => ⟨ofXK_toNat 0x6 x kk, aluWord_toNat x y 0x0,
    exec_of_writeReg_byte rfl, exec_of_writeReg_byte rfl⟩

/-- Settles O33: one register write of the exact sum, which reduces it and records the carry. -/
theorem addImmediateSetsNoFlag : Obligations.AddImmediateSetsNoFlag := by
  intro x kk s
  refine ⟨ofXK_toNat 0x7 x kk, _, rfl, ?_, ?_, onlyRegs_writeReg s x _⟩
  · have hsum := toNat_ofInt8 ((s.reg x).toNat + kk.toNat)
    rw [State.reg_writeReg_same]
    omega
  · rw [State.writeReg_ovf, decide_eq_true_iff]
    omega

/-- Settles O34: each operation writes the byte whose bits the library gives. -/
theorem logicWritesNoFlag : Obligations.LogicWritesNoFlag :=
  fun x y _ => ⟨aluWord_toNat x y 0x1, aluWord_toNat x y 0x2, aluWord_toNat x y 0x3,
    exec_of_writeReg_bits rfl fun _ => BitVec.getLsbD_or,
    exec_of_writeReg_bits rfl fun _ => BitVec.getLsbD_and,
    exec_of_writeReg_bits rfl fun _ => BitVec.getLsbD_xor⟩

/-- Settles O35: the carry is the overflow indicator of the sum's own write. -/
theorem addSetsCarry : Obligations.AddSetsCarry := by
  intro x y s
  exact ⟨aluWord_toNat x y 0x4, exec_of_writeThenFlag
    (congrArg Host.Outcome.next (s.writeCarry_eq_writeThenFlag x _))
    (toNat_decide_eq_ite (by omega)) (by omega)⟩

/-- Settles O36: both are the same subtraction, with the operands exchanged. -/
theorem subtractionsSetNoBorrow : Obligations.SubtractionsSetNoBorrow :=
  fun x y _ => ⟨aluWord_toNat x y 0x5, aluWord_toNat x y 0x7,
    exec_of_writeNoBorrow_sub rfl, exec_of_writeNoBorrow_sub rfl⟩

/-- Settles O37: the flag is a bit of the old `V[x]`, read before either write. -/
theorem shiftsSetTheBitShiftedOut : Obligations.ShiftsSetTheBitShiftedOut := by
  intro x y s
  have hx := (s.reg x).isLt
  have hbit (k : Nat) : ((s.reg x).getLsbD k).toNat = (s.reg x).toNat / 2 ^ k % 2 :=
    Nat.toNat_testBit _ k
  refine ⟨aluWord_toNat x y 0x6, aluWord_toNat x y 0xE,
    exec_of_writeThenFlag rfl ?_ ?_, exec_of_writeThenFlag rfl ?_ ?_⟩
  · rw [hbit, pow_zero, Nat.div_one]
  · omega
  · rw [hbit]; omega
  · omega

/-- Settles O38: the draw's bound is in its type, so the byte written is the draw itself. -/
theorem randomDrawStaysWithinItsBound : Obligations.RandomDrawStaysWithinItsBound := by
  intro x kk s
  have hdraw := (Config.randomDraw s.env kk).isLt
  have hkk := kk.isLt
  obtain ⟨t, ht, hreg, hrest⟩ := exec_of_writeReg_lt (i := .rand x kk) rfl
    (show s.randomDraw kk < 256 by rw [State.randomDraw]; omega)
  rw [State.randomDraw] at hreg
  exact ⟨ofXK_toNat 0xC x kk, t, ht, hreg, by omega, hrest⟩

end Sys2Proof.Proofs
end

section
/-! SUPPORT. Glyph addresses, and the stores and the load through `I`: which check each passes or
fails, and what it leaves in memory or in the registers (20 R65 to R69, 43 R192 to R196). -/

namespace Sys2Proof.Machine

open Sys2Proof.Claim (recorded OnlyStored)

/-- The words of family F, by their sub-code. -/
theorem miscWord_toNat (x : Reg) (kk : Byte) :
    (ofXK 0xF x kk).toNat = 0xF000 + kk.toNat + 256 * x.toNat := by
  rw [ofXK_toNat, show (0xF : Nibble).toNat = 15 from rfl]
  omega

/-- A meaning that leaves no cause has passed its check. -/
theorem exec_next_of_cause_zero {i : Instr} {s t : State} (h : exec i s = .next t)
    (hcause : t.status.cause = 0) : checkOf i s = none ∧ t = effectOf i s := by
  refine (exec_next h).resolve_left ?_
  rintro ⟨c, -, rfl⟩
  exact c.code_ne_zero hcause

/-- The glyph of a digit lies low enough that its address does not wrap (43 R192). -/
theorem glyphAddr_toNat (v : Byte) : (glyphAddr v).toNat = 5 * v.toNat := by
  have := v.isLt
  simp only [glyphAddr, Config.fontBase, Config.glyphBytes, BitVec.toNat_ofNat]
  omega

/-! ## Stores (20 R69, 43 R193, R194) -/

/-- A store that reaches beyond 0xFFF raises MemoryRangeFault, wherever it begins. -/
theorem exec_of_checkWrite_beyond {i : Instr} {s : State} {n : Nat}
    (hc : checkOf i s = checkWrite s.i.toNat n) (h : 0x1000 < s.i.toNat + n) :
    exec i s = .next (recorded s 7 (encode i) true) :=
  exec_of_checkOf_some (hc.trans (checkWrite_eq_some.2 (.inl ⟨rfl, h⟩)))

/-- A store in range that begins below 0x200 raises WriteProtectFault. -/
theorem exec_of_checkWrite_below {i : Instr} {s : State} {n : Nat}
    (hc : checkOf i s = checkWrite s.i.toNat n) (hhi : s.i.toNat + n ≤ 0x1000)
    (hlo : s.i.toNat < 0x200) :
    exec i s = .next (recorded s 8 (encode i) true) :=
  exec_of_checkOf_some (hc.trans (checkWrite_eq_some.2 (.inr ⟨rfl, hhi, hlo⟩)))

theorem onlyStored_storeBytes (s : State) (a : Nat) (bs : List Byte) :
    OnlyStored a bs.length s (s.storeBytes a bs) :=
  ⟨fun _ hb => Memory.read_writeBytes_other s.mem a bs hb, rfl⟩

/-- A `store_bcd` whose three bytes lie in 0x200 to 0xFFF stores the digits. -/
theorem exec_storeBcd_of_inRange {s : State} (x : Reg) (hlo : 0x200 ≤ s.i.toNat)
    (hhi : s.i.toNat + 2 ≤ 0xFFF) :
    exec (.storeBcd x) s = .next (s.storeBytes s.i.toNat (bcdDigits (s.reg x))) :=
  exec_of_checkOf_none (i := .storeBcd x) (checkWrite_eq_none.2 ⟨Nat.succ_le_succ hhi, hlo⟩)

/-- Every digit of a byte fits the byte it is stored in. -/
theorem bcdDigits_map_toNat (v : Byte) :
    (bcdDigits v).map BitVec.toNat = [v.toNat / 100, v.toNat / 10 % 10, v.toNat % 10] := by
  have := v.isLt
  simp only [bcdDigits, List.map_cons, List.map_nil, BitVec.toNat_ofNat, List.cons.injEq, and_true]
  omega

/-- Digit `k` of a stored byte stands `k` above the base. -/
theorem State.read_storeBytes_bcdDigits {s : State} (hm : Memory.wf s.mem) (a : Nat) (v : Byte)
    (k : Fin 3) :
    (Memory.read (s.storeBytes a (bcdDigits v)).mem (a + k)).toNat =
      [v.toNat / 100, v.toNat / 10 % 10, v.toNat % 10][k] := by
  rw [State.storeBytes_mem, Memory.read_writeBytes_same hm.1 a (bcdDigits v) k k.isLt]
  simp only [← bcdDigits_map_toNat]
  exact (List.getElem_map BitVec.toNat).symm

/-! ## The load (20 R68, 43 R195) -/

/-- A `load_regs` whose bytes all lie at 0xFFF or below loads its block. -/
theorem exec_loadRegs_of_inRange {s : State} {x : Reg} (h : s.i.toNat + x.toNat ≤ 0xFFF) :
    exec (.loadRegs x) s = .next (s.loadRegsFrom s.i.toNat (x.toNat + 1)) :=
  exec_of_checkOf_none (i := .loadRegs x) (checkRead_eq_none.2 (.inr (Nat.succ_le_succ h)))

/-- A `load_regs` that reaches beyond 0xFFF raises MemoryRangeFault. -/
theorem exec_loadRegs_of_beyond {s : State} {x : Reg} (h : 0xFFF < s.i.toNat + x.toNat) :
    exec (.loadRegs x) s = .next (recorded s 7 (encode (.loadRegs x)) true) :=
  exec_of_checkOf_some (i := .loadRegs x)
    (checkRead_eq_some.2 ⟨rfl, Nat.succ_ne_zero _, Nat.succ_lt_succ h⟩)

/-- A loaded block holds the bytes at `a` upward, and the registers above it are unchanged. -/
theorem State.reg_loadRegsFrom_succ (s : State) (a : Nat) (x r : Reg) :
    (s.loadRegsFrom a (x.toNat + 1)).reg r =
      if r.toNat ≤ x.toNat then Memory.read s.mem (a + r.toNat) else s.reg r := by
  rw [State.reg_loadRegsFrom s a _ x.isLt r]
  simp only [Nat.lt_succ_iff]

/-- A load writes the registers and their overflow indicator only. -/
theorem State.loadRegsFrom_frame (s : State) (a n : Nat) :
    s.loadRegsFrom a n =
      { s with v := (s.loadRegsFrom a n).v, ovf := (s.loadRegsFrom a n).ovf } := by
  induction n with
  | zero => rfl
  | succ k ih => rw [State.loadRegsFrom, ih]; rfl

end Sys2Proof.Machine
end

section
/-! PROOFS. The statements about the index register and memory instructions (43). -/

namespace Sys2Proof.Proofs

open Sys2Proof.Machine Sys2Proof.Claim

/-- Settles O44: a store that left no cause passed its check, so the block is in range for the load
too, and each register is read from the byte it was stored in. -/
theorem storedBlockLoadsBack : Obligations.StoredBlockLoadsBack := by
  intro x s t u hm he hst hcause hmem hi
  obtain ⟨hc, rfl⟩ := exec_next_of_cause_zero he (hst ▸ hcause)
  obtain ⟨hhi, -⟩ : s.i.toNat + (x.toNat + 1) ≤ 0x1000 ∧ 0x200 ≤ s.i.toNat :=
    checkWrite_eq_none.1 hc
  refine ⟨_, exec_loadRegs_of_inRange (hi ▸ Nat.le_of_succ_le_succ hhi), fun r hr => ?_⟩
  rw [State.reg_loadRegsFrom_succ, if_pos hr, hmem, hi]
  exact State.read_storeBytes_regsUpTo hm s.i.toNat hr

/-- Settles O39: neither has a check, and the effect of each is one write of `I`. -/
theorem indexIsSetAndAddedTo : Obligations.IndexIsSetAndAddedTo := by
  intro nnn x s
  refine ⟨ofA_toNat 0xA nnn, miscWord_toNat x 0x1E, ⟨_, rfl, addrOf_toNat nnn, rfl⟩,
    _, rfl, ?_, rfl⟩
  exact (BitVec.toNat_add s.i (wide (s.reg x))).trans (by rw [wide_toNat])

/-- Settles O40, from the two answers of the check on the whole register value. -/
theorem fontIndexAddressesTheGlyph : Obligations.FontIndexAddressesTheGlyph := by
  intro x s
  refine ⟨miscWord_toNat x 0x29, fun h => ?_, fun h => ?_⟩
  · exact ⟨_, exec_of_checkOf_none (i := .fontIndex x) (checkFontIndex_eq_none.2 h),
      glyphAddr_toNat (s.reg x), rfl⟩
  · exact exec_of_checkOf_some (i := .fontIndex x) (checkFontIndex_eq_some.2 ⟨rfl, h⟩)

/-- Settles O41, from the three answers of the write check on three bytes. -/
theorem bcdDigitsAreStored : Obligations.BcdDigitsAreStored := by
  intro x s
  refine ⟨miscWord_toNat x 0x33, fun hm hlo hhi => ?_, fun h => ?_, fun h => ?_⟩
  · have hdigit := State.read_storeBytes_bcdDigits hm s.i.toNat (s.reg x)
    exact ⟨_, exec_storeBcd_of_inRange x hlo hhi, hdigit 0, hdigit 1, hdigit 2,
      onlyStored_storeBytes s _ (bcdDigits (s.reg x))⟩
  · exact exec_of_checkWrite_beyond (n := 3) rfl (by omega)
  · exact exec_of_checkWrite_below (n := 3) rfl (by omega) h

/-- Settles O42, from the three answers of the write check on `x + 1` bytes; a block of at most 16
bytes that begins below 0x200 does not reach 0xFFF. -/
theorem registerBlockIsStored : Obligations.RegisterBlockIsStored := by
  intro x s
  have hx := x.isLt
  refine ⟨miscWord_toNat x 0x55, fun hm hlo hhi => ?_, fun h => ?_, fun h => ?_⟩
  · exact ⟨_, exec_storeRegs_of_inRange hlo hhi,
      fun r => State.read_storeBytes_regsUpTo hm s.i.toNat,
      s.regsUpTo_length x ▸ onlyStored_storeBytes s _ _⟩
  · exact exec_of_checkWrite_beyond (n := x.toNat + 1) rfl (by omega)
  · exact exec_of_checkWrite_below (n := x.toNat + 1) rfl (by omega) h

/-- Settles O43, from the two answers of the read check and what a load leaves. -/
theorem registerBlockIsLoaded : Obligations.RegisterBlockIsLoaded := by
  intro x s
  refine ⟨miscWord_toNat x 0x65, fun h => ?_, exec_loadRegs_of_beyond⟩
  have hovf := State.ovf_loadRegsFrom s s.i.toNat x.toNat
  refine ⟨_, exec_loadRegs_of_inRange h, State.reg_loadRegsFrom_succ s s.i.toNat x, hovf,
    fun a => by rw [State.loadRegsFrom_mem], ?_⟩
  rw [← hovf]
  exact State.loadRegsFrom_frame s _ _

end Sys2Proof.Proofs
end

section
/-! SUPPORT. The framebuffer in pixels, seen from the corner a sprite is drawn at: what each pixel
holds after a draw, and when a draw collides (10 R37, R38, 44 R211, R215). -/

namespace Sys2Proof.Machine.Framebuffer

open Sys2Proof.Claim (spriteCol spriteRow)

/-! ## Pixels of a grid (10 R38) -/

/-- A pixel is a bit of its byte, counted from the most significant one. -/
theorem pixel_eq_getMsbD (fb : Framebuffer) (px py : Nat) :
    pixel fb px py = (byte fb (rowOf py) (colOf (px / 8))).getMsbD (px % 8) := by
  simp [pixel, BitVec.getMsbD_eq_getLsbD, Nat.mod_lt]

theorem pixel_cleared (px py : Nat) : pixel cleared px py = false := by
  simp [pixel_eq_getMsbD]

theorem rowOf_eq_iff {a b : Nat} : rowOf a = rowOf b ↔ a % 32 = b % 32 := Fin.ext_iff

theorem colOf_eq_iff {a b : Nat} : colOf a = colOf b ↔ a % 8 = b % 8 := Fin.ext_iff

/-- Both coordinates wrap (44 R215). -/
theorem pixel_congr (fb : Framebuffer) {px px' py py' : Nat} (hx : px % 64 = px' % 64)
    (hy : py % 32 = py' % 32) : pixel fb px py = pixel fb px' py' := by
  have hcol : colOf (px / 8) = colOf (px' / 8) := colOf_eq_iff.2 (by omega)
  have hbit : px % 8 = px' % 8 := by omega
  rw [pixel_eq_getMsbD, pixel_eq_getMsbD, rowOf_eq_iff.2 hy, hcol, hbit]

theorem pixel_spriteCol_spriteRow (fb : Framebuffer) (x y j k : Nat) :
    pixel fb (spriteCol x j) (spriteRow y k) = pixel fb (x + j) (y + k) :=
  pixel_congr fb (Nat.mod_mod _ _) (Nat.mod_mod _ _)

/-- Every column is some column of a grid-wide window at `x`. -/
theorem exists_spriteCol (x : Nat) {px : Nat} (h : px < 64) : ∃ j < 64, px = spriteCol x j :=
  ⟨(px + 64 - x % 64) % 64, Nat.mod_lt _ (by decide), by
    simp only [spriteCol, Config.fbWidth]; omega⟩

/-- Every row is some row of a grid-high window at `y`. -/
theorem exists_spriteRow (y : Nat) {py : Nat} (h : py < 32) : ∃ k < 32, py = spriteRow y k :=
  ⟨(py + 32 - y % 32) % 32, Nat.mod_lt _ (by decide), by
    simp only [spriteRow, Config.fbHeight]; omega⟩

/-- Every bit of a byte of the grid is a pixel of a grid-wide window at `x`. -/
theorem exists_column_bit (x : Nat) (c : Fin Config.fbWb) {i : Nat} (hi : i < 8) :
    ∃ j < 64, colOf ((x + j) / 8) = c ∧ (x + j) % 8 = i := by
  have hc : c.val < 8 := c.isLt
  obtain ⟨j, hj, hpx⟩ := exists_spriteCol x (px := 8 * c.val + i) (by omega)
  simp only [spriteCol, Config.fbWidth] at hpx
  refine ⟨j, hj, Fin.ext ?_, by omega⟩
  show (x + j) / 8 % 8 = c.val
  omega

/-- Grids that agree on a grid-sized window at `(x, y)` are the same grid. -/
theorem ext_pixel {fb fb' : Framebuffer} (x y : Nat)
    (h : ∀ j < 64, ∀ k < 32, pixel fb (x + j) (y + k) = pixel fb' (x + j) (y + k)) : fb = fb' := by
  refine ext_byte fun r c => BitVec.eq_of_getMsbD_eq fun i hi => ?_
  obtain ⟨k, hk, hr⟩ := exists_spriteRow y r.isLt
  obtain ⟨j, hj, hcol, hbit⟩ := exists_column_bit x c hi
  have hrow : rowOf (y + k) = r := Fin.ext hr.symm
  have hpix := h j hj k hk
  rwa [pixel_eq_getMsbD, pixel_eq_getMsbD, hrow, hcol, hbit] at hpix

/-! ## One sprite byte (44 R211) -/

/-- Where the left byte column holds window column `j`, the left part holds the sprite's bit `j`. -/
theorem leftPart_getMsbD {x j : Nat} (b : Byte) (hj : j < 64)
    (hc : colOf ((x + j) / 8) = colOf (x / 8)) :
    (leftPart (x % 8) b).getMsbD ((x + j) % 8) = b.getMsbD j := by
  rw [colOf_eq_iff] at hc
  rw [leftPart, BitVec.getMsbD_ushiftRight]
  by_cases hwrap : (x + j) % 8 < x % 8
  · simp [hwrap, BitVec.getMsbD_of_ge b j (by omega)]
  · simp [hwrap, Nat.mod_lt, show (x + j) % 8 - x % 8 = j by omega]

/-- Where the right byte column holds window column `j`, the right part holds the sprite's bit
`j`. -/
theorem rightPart_getMsbD {x j : Nat} (b : Byte) (hj : j < 64)
    (hc : colOf ((x + j) / 8) = colOf (x / 8 + 1)) :
    (rightPart (x % 8) b).getMsbD ((x + j) % 8) = b.getMsbD j := by
  rw [colOf_eq_iff] at hc
  rw [rightPart, BitVec.getMsbD_shiftLeft, show (x + j) % 8 + (8 - x % 8) = j by omega]

/-- The two byte columns hold all eight columns of a sprite byte. -/
theorem colOf_of_lt_eight (x : Nat) {j : Nat} (hj : j < 8) :
    colOf ((x + j) / 8) = colOf (x / 8) ∨ colOf ((x + j) / 8) = colOf (x / 8 + 1) := by
  simp only [colOf_eq_iff]
  omega

/-- A sprite byte is exclusive-ored into the row it is drawn on, and no other row changes. -/
theorem pixel_drawRow (acc : Framebuffer × Bool) (x y : Nat) (b : Byte) {j k : Nat} (hj : j < 64)
    (hk : k < 32) :
    pixel (drawRow acc x (rowOf y) b).1 (x + j) (y + k) =
      (pixel acc.1 (x + j) (y + k) ^^ (decide (k = 0) && b.getMsbD j)) := by
  have hrow : rowOf (y + k) = rowOf y ↔ k = 0 := by rw [rowOf_eq_iff]; omega
  rw [pixel_eq_getMsbD, pixel_eq_getMsbD, byte_drawRow]
  simp only [hrow]
  by_cases hk0 : k = 0
  · by_cases hl : colOf ((x + j) / 8) = colOf (x / 8)
    · rw [if_pos ⟨hk0, hl⟩, BitVec.getMsbD_xor, leftPart_getMsbD b hj hl]
      simp [hk0]
    · by_cases hr : colOf ((x + j) / 8) = colOf (x / 8 + 1)
      · rw [if_neg (hl ·.2), if_pos ⟨hk0, hr⟩, BitVec.getMsbD_xor, rightPart_getMsbD b hj hr]
        simp [hk0]
      · have hj8 : 8 ≤ j := Nat.le_of_not_lt fun h => (colOf_of_lt_eight x h).elim hl hr
        simp [hl, hr, BitVec.getMsbD_of_ge b j hj8]
  · simp [hk0]

/-- Two bytes overlap when some bit is set in both. -/
theorem and_ne_zero_iff (a b : Byte) :
    (a &&& b) != 0 ↔ ∃ i, a.getMsbD i = true ∧ b.getMsbD i = true := by
  rw [bne_iff_ne]
  constructor
  · intro hne
    by_contra hno
    push Not at hno
    exact hne (BitVec.eq_of_getMsbD_eq fun i _ => by simpa using hno i)
  · rintro ⟨i, ha, hb⟩ h0
    have hbit := congrArg (BitVec.getMsbD · i) h0
    simp [ha, hb] at hbit

/-- A part of a sprite byte collides in byte column `c` when it meets a set pixel there. -/
theorem overlap_iff (fb : Framebuffer) {x : Nat} (y : Nat) {c : Fin Config.fbWb} {part b : Byte}
    (hpart : ∀ j < 64, colOf ((x + j) / 8) = c → part.getMsbD ((x + j) % 8) = b.getMsbD j) :
    (byte fb (rowOf y) c &&& part) != 0 ↔
      ∃ j < 64, colOf ((x + j) / 8) = c ∧ pixel fb (x + j) y = true ∧ b.getMsbD j = true := by
  rw [and_ne_zero_iff]
  constructor
  · rintro ⟨i, hfb, hbit⟩
    obtain ⟨j, hj, hc, rfl⟩ := exists_column_bit x c (BitVec.lt_of_getMsbD hbit)
    exact ⟨j, hj, hc, by rwa [pixel_eq_getMsbD, hc], hpart j hj hc ▸ hbit⟩
  · rintro ⟨j, hj, hc, hpix, hbit⟩
    exact ⟨(x + j) % 8, by rwa [pixel_eq_getMsbD, hc] at hpix, (hpart j hj hc).trans hbit⟩

/-- Drawing a sprite byte collides when one of its bits meets a set pixel; the part drawn second
reads a byte that the first one left as it was. -/
theorem drawRow_collision_iff (acc : Framebuffer × Bool) (x y : Nat) (b : Byte) :
    (drawRow acc x (rowOf y) b).2 = true ↔
      acc.2 = true ∨ ∃ j, pixel acc.1 (x + j) y = true ∧ b.getMsbD j = true := by
  have hleft := overlap_iff acc.1 y fun j hj => leftPart_getMsbD (x := x) b hj
  have hright := overlap_iff acc.1 y fun j hj => rightPart_getMsbD (x := x) b hj
  have hsecond : byte (composite acc (rowOf y) (colOf (x / 8)) (leftPart (x % 8) b)).1 (rowOf y)
      (colOf (x / 8 + 1)) = byte acc.1 (rowOf y) (colOf (x / 8 + 1)) := by
    rw [byte_composite, if_neg fun h => colOf_succ_ne _ h.2]
  have hparts : (drawRow acc x (rowOf y) b).2 = true ↔
      (acc.2 = true ∨ (byte acc.1 (rowOf y) (colOf (x / 8)) &&& leftPart (x % 8) b) != 0) ∨
        (byte acc.1 (rowOf y) (colOf (x / 8 + 1)) &&& rightPart (x % 8) b) != 0 := by
    rw [← Bool.or_eq_true, ← Bool.or_eq_true, ← hsecond]
    rfl
  rw [hparts, hleft, hright, or_assoc]
  refine or_congr_right ⟨?_, ?_⟩
  · rintro (⟨j, -, -, hj⟩ | ⟨j, -, -, hj⟩) <;> exact ⟨j, hj⟩
  · rintro ⟨j, hpix, hbit⟩
    have hj : j < 8 := BitVec.lt_of_getMsbD hbit
    have hj64 : j < 64 := by omega
    exact (colOf_of_lt_eight x hj).imp (⟨j, hj64, ·, hpix, hbit⟩) (⟨j, hj64, ·, hpix, hbit⟩)

/-! ## A whole sprite (44 R211) -/

/-- The sprite's pixel in its column `j` and row `k`: 0 outside the sprite. -/
def spriteBit (S : List Byte) (j k : Nat) : Bool := (S[k]?.getD 0).getMsbD j

theorem spriteBit_of_length_le {S : List Byte} {k : Nat} (j : Nat) (h : S.length ≤ k) :
    spriteBit S j k = false := by
  simp [spriteBit, List.getElem?_eq_none h]

@[simp] theorem spriteBit_cons_zero (b : Byte) (S : List Byte) (j : Nat) :
    spriteBit (b :: S) j 0 = b.getMsbD j := rfl

@[simp] theorem spriteBit_cons_succ (b : Byte) (S : List Byte) (j k : Nat) :
    spriteBit (b :: S) j (k + 1) = spriteBit S j k := rfl

theorem spriteBit_of_lt {S : List Byte} {j k : Nat} (hk : k < S.length) (hj : j < 8) :
    spriteBit S j k = S[k].getLsbD (7 - j) := by
  simp [spriteBit, hk, hj, BitVec.getMsbD_eq_getLsbD]

theorem lt_of_spriteBit {S : List Byte} {j k : Nat} (h : spriteBit S j k = true) :
    k < S.length ∧ j < 8 := by
  refine ⟨Nat.lt_of_not_le fun hk => ?_, BitVec.lt_of_getMsbD h⟩
  rw [spriteBit_of_length_le j hk] at h
  exact absurd h Bool.false_ne_true

theorem spriteBit_eq_true_iff {S : List Byte} {j k : Nat} :
    spriteBit S j k = true ↔ ∃ hk : k < S.length, j < 8 ∧ S[k].getLsbD (7 - j) = true := by
  constructor
  · intro h
    obtain ⟨hk, hj⟩ := lt_of_spriteBit h
    exact ⟨hk, hj, spriteBit_of_lt hk hj ▸ h⟩
  · rintro ⟨hk, hj, h⟩
    exact (spriteBit_of_lt hk hj).trans h

/-- Rows no higher than the grid are each exclusive-ored into a row of their own. -/
theorem pixel_drawRows (S : List Byte) (acc : Framebuffer × Bool) (x y : Nat) {j k : Nat}
    (hS : S.length ≤ 32) (hj : j < 64) (hk : k < 32) :
    pixel (drawRows acc x y S).1 (x + j) (y + k) =
      (pixel acc.1 (x + j) (y + k) ^^ spriteBit S j k) := by
  induction S generalizing acc y k with
  | nil => simp [spriteBit]
  | cons b S ih =>
    rw [List.length_cons] at hS
    rw [drawRows_cons]
    cases k with
    | zero =>
      have hwrap (fb : Framebuffer) : pixel fb (x + j) (y + 0) = pixel fb (x + j) (y + 1 + 31) :=
        pixel_congr fb rfl (by omega)
      rw [hwrap, ih _ _ (by omega) (by omega), spriteBit_of_length_le j (by omega), ← hwrap,
        pixel_drawRow acc x y b hj hk]
      simp
    | succ k =>
      rw [show y + (k + 1) = y + 1 + k by omega, ih _ _ (by omega) (by omega),
        show y + 1 + k = y + (k + 1) by omega, pixel_drawRow acc x y b hj hk]
      simp

/-- Rows no higher than the grid collide as if all were compared with the grid before the draw. -/
theorem drawRows_collision_iff (S : List Byte) (acc : Framebuffer × Bool) (x y : Nat)
    (hS : S.length ≤ 32) :
    (drawRows acc x y S).2 = true ↔
      acc.2 = true ∨ ∃ k j, pixel acc.1 (x + j) (y + k) = true ∧ spriteBit S j k = true := by
  induction S generalizing acc y with
  | nil => simp [spriteBit]
  | cons b S ih =>
    rw [List.length_cons] at hS
    have hlater (k j : Nat) : (pixel (drawRow acc x (rowOf y) b).1 (x + j) (y + 1 + k) = true ∧
        spriteBit S j k = true) ↔
        (pixel acc.1 (x + j) (y + (k + 1)) = true ∧ spriteBit (b :: S) j (k + 1) = true) := by
      refine and_congr_left fun h => ?_
      obtain ⟨hk, hj⟩ := lt_of_spriteBit h
      rw [show y + 1 + k = y + (k + 1) by omega, pixel_drawRow acc x y b (by omega) (by omega)]
      simp
    rw [drawRows_cons, ih _ _ (by omega), drawRow_collision_iff, or_assoc]
    simp only [hlater]
    exact or_congr_right (Nat.or_exists_add_one
      (p := fun k => ∃ j, pixel acc.1 (x + j) (y + k) = true ∧ spriteBit (b :: S) j k = true))

/-- `FbDraw` is an exclusive or of the sprite into the window at `(x, y)`. -/
theorem pixel_draw (fb : Framebuffer) (x y : Nat) {S : List Byte} {j k : Nat}
    (hS : S.length ≤ 32) (hj : j < 64) (hk : k < 32) :
    pixel (draw fb x y S).1 (x + j) (y + k) = (pixel fb (x + j) (y + k) ^^ spriteBit S j k) :=
  pixel_drawRows S (fb, false) x y hS hj hk

/-- `FbDraw` collides when a set pixel of the sprite falls on a set pixel of the grid. -/
theorem draw_collision_iff (fb : Framebuffer) (x y : Nat) {S : List Byte} (hS : S.length ≤ 32) :
    (draw fb x y S).2 = true ↔
      ∃ k j, pixel fb (x + j) (y + k) = true ∧ spriteBit S j k = true :=
  (drawRows_collision_iff S (fb, false) x y hS).trans (or_iff_right Bool.false_ne_true)

theorem draw_draw (fb : Framebuffer) (x y : Nat) {S : List Byte} (hS : S.length ≤ 32) :
    (draw (draw fb x y S).1 x y S).1 = fb := by
  refine ext_pixel x y fun j hj k hk => ?_
  rw [pixel_draw _ x y hS hj hk, pixel_draw fb x y hS hj hk]
  simp

/-- A grid of zeros shows what is drawn on it. -/
theorem pixel_draw_cleared_iff (x y : Nat) {S : List Byte} (hS : S.length ≤ 32) {px py : Nat}
    (hx : px < 64) (hy : py < 32) :
    pixel (draw cleared x y S).1 px py = true ↔
      ∃ k j, px = spriteCol x j ∧ py = spriteRow y k ∧ spriteBit S j k = true := by
  constructor
  · intro hpix
    obtain ⟨j, hj, rfl⟩ := exists_spriteCol x hx
    obtain ⟨k, hk, rfl⟩ := exists_spriteRow y hy
    rw [pixel_spriteCol_spriteRow, pixel_draw _ x y hS hj hk] at hpix
    exact ⟨k, j, rfl, rfl, by simpa [pixel_cleared] using hpix⟩
  · rintro ⟨k, j, rfl, rfl, hbit⟩
    obtain ⟨hk, hj⟩ := lt_of_spriteBit hbit
    rw [pixel_spriteCol_spriteRow, pixel_draw _ x y hS (by omega) (by omega), hbit]
    simp [pixel_cleared]

theorem draw_cleared_collision (x y : Nat) {S : List Byte} (hS : S.length ≤ 32) :
    (draw cleared x y S).2 = false := by
  rw [← Bool.not_eq_true, draw_collision_iff _ x y hS]
  simp [pixel_cleared]

end Sys2Proof.Machine.Framebuffer
end

section
/-! SUPPORT. What `clear_screen` and `draw` answer (44 R212, R213). -/

namespace Sys2Proof.Machine

open Sys2Proof.Claim (recorded sprite)

/-- The bytes `draw` reads are the sprite at `I` (20 R61). -/
theorem readBytes_indexAddr_eq_sprite (s : State) (n : Nat) :
    Memory.readBytes s.mem s.indexAddr n = sprite s n := by
  refine List.ext_getElem (by simp [sprite]) fun k hk _ => ?_
  rw [Memory.readBytes_getElem _ _ _ _ (by simpa using hk)]
  simp [sprite, State.indexAddr]

@[simp] theorem sprite_length (s : State) (n : Nat) : (sprite s n).length = n := by
  simp [sprite]

/-- The pixels of the sprite at `I`, read from memory. -/
theorem spriteBit_sprite_iff {s : State} {n j k : Nat} :
    Framebuffer.spriteBit (sprite s n) j k = true ↔
      k < n ∧ j < 8 ∧ (Memory.read s.mem (s.i.toNat + k)).getLsbD (7 - j) = true := by
  rw [Framebuffer.spriteBit_eq_true_iff]
  simp only [sprite, List.getElem_map, List.getElem_range, List.length_map, List.length_range,
    exists_prop]

/-- A `draw` of no rows, or of rows that all lie at 0xFFF or below, composites its sprite. -/
theorem exec_draw_of_inRange {s : State} (x y : Reg) {n : Nibble}
    (h : n = 0 ∨ s.i.toNat + n.toNat - 1 ≤ 0xFFF) :
    exec (.draw x y n) s = .next (s.drawFb (s.reg x).toNat (s.reg y).toNat
      (sprite s n.toNat)).writeCollision.emitDrawDone := by
  have hcheck : checkOf (.draw x y n) s = none :=
    checkRead_eq_none.2 (h.imp (congrArg BitVec.toNat) fun hle => by
      simp only [State.indexAddr]; omega)
  rw [exec_of_checkOf_none hcheck, ← readBytes_indexAddr_eq_sprite]
  rfl

/-- A `draw` of rows that reach beyond 0xFFF raises MemoryRangeFault. -/
theorem exec_draw_of_beyond {s : State} (x y : Reg) {n : Nibble} (hn : 1 ≤ n.toNat)
    (h : 0xFFF < s.i.toNat + n.toNat - 1) :
    exec (.draw x y n) s = .next (recorded s 7 (encode (.draw x y n)) true) :=
  exec_of_checkOf_some (i := .draw x y n)
    (checkRead_eq_some.2 ⟨rfl, by omega, by simp only [State.indexAddr]; omega⟩)

/-- VF after a draw is the collision (44 R212). -/
theorem State.reg_vf_writeCollision (s : State) :
    s.writeCollision.reg vf = if s.collision then 1 else 0 := by
  rw [State.writeCollision, State.reg_writeReg_same]
  cases s.collision <;> rfl

theorem State.writeCollision_frame (s : State) :
    s.writeCollision = { s with v := s.writeCollision.v, ovf := false } := by
  have hovf : s.writeCollision.ovf = false := ovf_flagValue s.collision
  rw [← hovf]
  rfl

end Sys2Proof.Machine
end

section
/-! PROOFS. The statements about the framebuffer (44). -/

namespace Sys2Proof.Proofs

open Sys2Proof.Machine Sys2Proof.Claim

/-- Settles O48: every pixel of the draw is the exclusive or with the sprite's bit there, which is 0
where no sprite pixel falls. -/
theorem drawIsPixelwiseExclusiveOr : Obligations.DrawIsPixelwiseExclusiveOr := by
  intro fb x y S hlen
  have hS : S.length ≤ 32 := by omega
  refine ⟨fun k hk j hj => ?_, fun px py hx hy hout => ?_, ?_⟩
  · rw [Framebuffer.pixel_spriteCol_spriteRow, Framebuffer.pixel_spriteCol_spriteRow,
      Framebuffer.pixel_draw fb x y hS (by omega) (by omega), Framebuffer.spriteBit_of_lt hk hj]
  · obtain ⟨j, hj, rfl⟩ := Framebuffer.exists_spriteCol x hx
    obtain ⟨k, hk, rfl⟩ := Framebuffer.exists_spriteRow y hy
    have hbit : Framebuffer.spriteBit S j k = false := Bool.eq_false_iff.2 fun h =>
      have ⟨hk, hj⟩ := Framebuffer.lt_of_spriteBit h
      hout k j hk hj ⟨rfl, rfl⟩
    rw [Framebuffer.pixel_spriteCol_spriteRow, Framebuffer.pixel_spriteCol_spriteRow,
      Framebuffer.pixel_draw fb x y hS hj hk, hbit, Bool.xor_false]
  · rw [Framebuffer.draw_collision_iff fb x y hS]
    simp only [Framebuffer.pixel_spriteCol_spriteRow, Framebuffer.spriteBit_eq_true_iff]
    constructor
    · rintro ⟨k, j, hpix, hk, hj, hbit⟩
      exact ⟨k, hk, j, hj, hpix, hbit⟩
    · rintro ⟨k, hk, j, hj, hpix, hbit⟩
      exact ⟨k, j, hpix, hk, hj, hbit⟩

/-- Settles O49: two exclusive ors cancel, and the second draw meets a set pixel under its sprite
exactly where the first one turned a 0 into a 1. -/
theorem secondDrawUndoesTheFirst : Obligations.SecondDrawUndoesTheFirst := by
  intro fb x y S hlen
  have hS : S.length ≤ 32 := by omega
  refine ⟨Framebuffer.draw_draw fb x y hS, ?_⟩
  rw [Framebuffer.draw_collision_iff _ x y hS]
  constructor
  · rintro ⟨k, j, hpix, hbit⟩
    obtain ⟨hk, hj⟩ := Framebuffer.lt_of_spriteBit hbit
    refine ⟨spriteCol x j, spriteRow y k, Nat.mod_lt _ (by decide), Nat.mod_lt _ (by decide), ?_⟩
    simp only [Framebuffer.pixel_spriteCol_spriteRow]
    refine ⟨?_, hpix⟩
    rw [Framebuffer.pixel_draw fb x y hS (by omega) (by omega), hbit] at hpix
    simpa using hpix
  · rintro ⟨px, py, hx, hy, hold, hnew⟩
    obtain ⟨j, hj, rfl⟩ := Framebuffer.exists_spriteCol x hx
    obtain ⟨k, hk, rfl⟩ := Framebuffer.exists_spriteRow y hy
    rw [Framebuffer.pixel_spriteCol_spriteRow] at hold hnew
    refine ⟨k, j, hnew, ?_⟩
    rwa [Framebuffer.pixel_draw fb x y hS hj hk, hold, Bool.false_xor] at hnew

/-- Settles O50: the grid that `clear_screen` leaves is a grid of zeros, and `I`, the coordinates and
the sprite are read as before it. -/
theorem drawAfterClearShowsTheSprite : Obligations.DrawAfterClearShowsTheSprite := by
  rintro z x y n s u t hrange ⟨⟩ hdraw
  have hS : (sprite s n.toNat).length ≤ 32 := by
    have := n.isLt
    rw [sprite_length]
    omega
  have hdrawn := exec_draw_of_inRange (s := s.clearFb) x y hrange
  obtain rfl := Host.Outcome.next.inj (hdraw.symm.trans hdrawn)
  refine ⟨?_, fun px py hx hy => ?_⟩
  · have hcollision :=
      Framebuffer.draw_cleared_collision (s.reg x).toNat (s.reg y).toNat hS
    rw [State.emitDrawDone_reg, State.reg_vf_writeCollision]
    exact if_neg (Bool.eq_false_iff.1 hcollision)
  · refine (Framebuffer.pixel_draw_cleared_iff (s.reg x).toNat (s.reg y).toNat hS hx hy).trans ?_
    simp only [spriteBit_sprite_iff]
    exact ⟨fun ⟨k, j, hpx, hpy, hk, hj, hbit⟩ => ⟨k, j, hk, hj, hpx, hpy, hbit⟩,
      fun ⟨k, j, hk, hj, hpx, hpy, hbit⟩ => ⟨k, j, hpx, hpy, hk, hj, hbit⟩⟩

/-- Settles O46: clearing replaces the grid and nothing else. -/
theorem clearZeroesTheGrid : Obligations.ClearZeroesTheGrid := by
  intro z s
  refine ⟨?_, s.clearFb, rfl, Framebuffer.byte_cleared, rfl⟩
  exact (ofXK_toNat 0x0 z 0xE0).trans (congrArg (· + 0xE0) (Nat.zero_add _))

/-- Settles O47, from the two answers of the read check; VF is the last register written. -/
theorem drawCompositesTheSprite : Obligations.DrawCompositesTheSprite := by
  intro x y n s
  refine ⟨ofNibbles_toNat 0xD x y n, fun h => ?_, exec_draw_of_beyond x y⟩
  refine ⟨_, exec_draw_of_inRange x y h, rfl, ?_, fun r hr => ?_, fun _ => rfl, ?_⟩
  · rw [State.emitDrawDone_reg, State.reg_vf_writeCollision]
    exact apply_ite BitVec.toNat _ _ _
  · exact State.reg_writeReg_ne _ _ hr
  · exact congrArg State.emitDrawDone (State.writeCollision_frame _)

end Sys2Proof.Proofs
end

section
/-! SUPPORT. The key skips and their check, and what `wait_key` does with each answer of the
environment (45 R230 to R232, R236). -/

namespace Sys2Proof.Machine

open Sys2Proof.Claim (recorded OnlyRegs)

/-- The words of family E, by their sub-code. -/
theorem keyWord_toNat (x : Reg) (kk : Byte) :
    (ofXK 0xE x kk).toNat = 0xE000 + kk.toNat + 256 * x.toNat := by
  rw [ofXK_toNat, show (0xE : Nibble).toNat = 14 from rfl]
  omega

/-! ## The key skips (45 R230, R231, R236) -/

/-- The key a register names is its low nibble: the whole value, once the check has passed. -/
theorem State.keyPressed_eq (s : State) (b : Byte) :
    s.keyPressed b = Config.keyPressed s.env (BitVec.ofNat 4 b.toNat) := rfl

theorem State.skipIf_not (s : State) (c : Bool) :
    s.skipIf (!c) = { s with pc := if c then s.pc else s.pc + 2 } := by
  cases c <;> rfl

/-- On a key number the check passes, and the environment decides the skip. -/
theorem exec_skipKeyPressed_of_le {s : State} {x : Reg} (h : (s.reg x).toNat ≤ 15) :
    exec (.skipKeyPressed x) s = .next { s with
      pc := if Config.keyPressed s.env (BitVec.ofNat 4 (s.reg x).toNat) then s.pc + 2
            else s.pc } := by
  rw [exec_of_checkOf_none (i := .skipKeyPressed x) (checkKeyIndex_eq_none.2 h), effectOf,
    State.keyPressed_eq]
  rfl

/-- The same with the answer reversed. -/
theorem exec_skipKeyNotPressed_of_le {s : State} {x : Reg} (h : (s.reg x).toNat ≤ 15) :
    exec (.skipKeyNotPressed x) s = .next { s with
      pc := if Config.keyPressed s.env (BitVec.ofNat 4 (s.reg x).toNat) then s.pc
            else s.pc + 2 } := by
  rw [exec_of_checkOf_none (i := .skipKeyNotPressed x) (checkKeyIndex_eq_none.2 h), effectOf,
    State.keyPressed_eq, State.skipIf_not]

/-- An instruction that checks a key number reports InvalidKeyIndex for a value above 15. -/
theorem exec_of_checkKeyIndex_gt {i : Instr} {s : State} {b : Byte}
    (hc : checkOf i s = checkKeyIndex b) (h : 15 < b.toNat) :
    exec i s = .next (recorded s 9 (encode i) false) :=
  exec_of_checkOf_some (hc.trans (checkKeyIndex_eq_some.2 ⟨rfl, h⟩))

/-! ## The wait for a key (45 R232) -/

/-- No key: pc goes back onto the instruction. -/
theorem State.acceptKey_none (s : State) (x : Reg) :
    s.acceptKey x none = { s with pc := s.pc - 2 } := rfl

/-- A key fits the register it is stored in. -/
theorem State.acceptKey_some (s : State) (x : Reg) (k : Nibble) :
    ((s.acceptKey x (some k)).reg x).toNat = k.toNat ∧ (s.acceptKey x (some k)).ovf = false ∧
      OnlyRegs [x] s (s.acceptKey x (some k)) := by
  have hk : k.toNat < 256 := Nat.lt_trans k.isLt (by decide)
  refine ⟨?_, ovf_of_byte k.toNat hk, onlyRegs_writeReg s x k.toNat⟩
  have hmod := toNat_ofInt8 k.toNat
  rw [State.acceptKey, State.reg_writeReg_same]
  omega

end Sys2Proof.Machine
end

section
/-! PROOFS. The statements about keys and timers (45). -/

namespace Sys2Proof.Proofs

open Sys2Proof.Machine Sys2Proof.Claim

/-- Settles O51, from the two answers of the check on the whole register value. -/
theorem keySkipsFollowTheKeyState : Obligations.KeySkipsFollowTheKeyState := by
  intro x s
  refine ⟨keyWord_toNat x 0x9E, keyWord_toNat x 0xA1, fun h => ?_, fun h => ?_⟩
  · exact ⟨exec_skipKeyPressed_of_le h, exec_skipKeyNotPressed_of_le h⟩
  · exact ⟨exec_of_checkKeyIndex_gt rfl h, exec_of_checkKeyIndex_gt rfl h⟩

/-- Settles O52: the step takes up the environment's answer, whichever it is. -/
theorem waitKeyStoresTheKeyOrRepeats : Obligations.WaitKeyStoresTheKeyOrRepeats := by
  intro x s
  refine ⟨miscWord_toNat x 0x0A, ⟨s.acceptKey x (Config.nextKey s.env), rfl, fun k hk => ?_,
    fun hnone => ?_⟩, s.acceptKey_some x, s.acceptKey_none x⟩
  · rw [hk]
    exact s.acceptKey_some x k
  · rw [hnone, State.acceptKey_none]

/-- Settles O53: `get_delay` is one register write of a byte, the other two one write of a timer. -/
theorem timerInstructionsReadAndSet : Obligations.TimerInstructionsReadAndSet :=
  fun x _ => ⟨miscWord_toNat x 0x07, miscWord_toNat x 0x15, miscWord_toNat x 0x18,
    exec_of_writeReg_byte rfl, rfl, rfl⟩

end Sys2Proof.Proofs
end

section
/-! SUPPORT. What the host's transactions do between steps: every event of an interleaving, `Load`,
a tick, a placed word, and the read-outs (60 R271 to R288). -/

namespace Sys2Proof.Machine

open Sys2Proof.Safety
open Sys2Proof.Proofs (resetMeetsTheInvariants)

/-! ## `Load` (60 R281) -/

theorem State.load_of_gt (s : State) {bytes : List Byte} (h : 3584 < bytes.length) :
    s.load bytes = (.loadOverflow, s) := if_pos h

theorem State.load_of_le (s : State) {bytes : List Byte} (h : bytes.length ≤ 3584) :
    s.load bytes = (.ok, s.storeBytes 0x200 bytes) := if_neg (Nat.not_lt.2 h)

/-- An image that is accepted lies inside 0x200 to 0xFFF, as a store through an `I` of 0x200
would. -/
theorem memoryOk_storeBytes_image {s : State} {bytes : List Byte} (hs : MemoryOk s.mem)
    (h : bytes.length ≤ 3584) : MemoryOk (s.storeBytes 0x200 bytes).mem :=
  StoresInRange.memoryOk (s := { s with i := 0x200 })
    ⟨bytes, Nat.le_refl _, Nat.add_le_add_left h 0x200, rfl⟩ hs

/-- Both invariants are kept by `Load`, whether it accepts the image or refuses it. -/
theorem State.load_invariants {s : State} (bytes : List Byte) (hs : Inv s) (hp : PcInv s) :
    Inv (s.load bytes).2 ∧ PcInv (s.load bytes).2 := by
  by_cases h : bytes.length ≤ 3584
  · rw [s.load_of_le h]
    exact ⟨⟨memoryOk_storeBytes_image hs.1 h, hs.2⟩, hp⟩
  · rw [s.load_of_gt (Nat.not_le.1 h)]
    exact ⟨hs, hp⟩

/-! ## Every event (60 R272, R289) -/

/-- Both invariants are kept by every event. A reset needs neither of them, and a tick writes
nothing that they speak of. -/
theorem act_invariants {e : Event} {s t : State} (hs : Inv s) (hp : PcInv s)
    (h : act e s = .next t) : Inv t ∧ PcInv t := by
  cases e with
  | reset => cases h; exact resetMeetsTheInvariants
  | load bytes => cases h; exact State.load_invariants bytes hs hp
  | tickDelay | tickSound => cases h; exact ⟨hs, hp⟩
  | step => exact ⟨interpret_inv hs h, interpret_pcInv hp h⟩

/-- A sequence of events that ends in a next state is its first event, then the rest. -/
theorem actAll_cons_next {e : Event} {es : List Event} {s t : State}
    (h : actAll (e :: es) s = .next t) : ∃ u, act e s = .next u ∧ actAll es u = .next t := by
  rw [actAll] at h
  split at h
  · exact ⟨_, ‹_›, h⟩
  · cases h
  · cases h

/-! ## The causes of an instruction, as codes (60 R250, R251) -/

theorem CanTake.code_cases {i : Instr} {c : Cause} (h : CanTake i c) :
    (c.code = 3 ∧ ∃ nnn, i = .jsr nnn) ∨
    (c.code = 4 ∧ ∃ z, i = .retFromSub z) ∨
    (c.code = 5 ∧ ∃ x, i = .fontIndex x) ∨
    (c.code = 9 ∧ ∃ x, i = .skipKeyPressed x) ∨
    (c.code = 9 ∧ ∃ x, i = .skipKeyNotPressed x) ∨
    (c.code = 7 ∧ ∃ x y n, i = .draw x y n) ∨
    (c.code = 7 ∧ ∃ x, i = .loadRegs x) ∨
    ((c.code = 7 ∨ c.code = 8) ∧ ∃ x, i = .storeBcd x ∨ i = .storeRegs x) := by
  have code {d : Cause} : c = d → c.code = d.code := congrArg Cause.code
  exact h.imp (And.imp_left code) <| .imp (And.imp_left code) <| .imp (And.imp_left code) <|
    .imp (And.imp_left code) <| .imp (And.imp_left code) <| .imp (And.imp_left code) <|
    .imp (And.imp_left code) (And.imp_left (Or.imp code code))

/-! ## A tick (60 R271) -/

theorem tickValue_toNat_add_one {b : Byte} (h : 0 < b.toNat) :
    (tickValue b).toNat + 1 = b.toNat := by
  rw [tickValue_toNat]
  omega

theorem tickValue_of_zero {b : Byte} (h : b.toNat = 0) : tickValue b = b := if_neg (by omega)

/-! ## A placed word (log 12) -/

theorem wordOfBytes_extract (op : Word) :
    wordOfBytes (op.extractLsb' 8 8) (op.extractLsb' 0 8) = op := by
  apply BitVec.eq_of_toNat_eq
  have := op.isLt
  rw [wordOfBytes_toNat]
  simp only [BitVec.extractLsb'_toNat, Nat.shiftRight_eq_div_pow]
  omega

/-- A word written as its two bytes is fetched back. -/
theorem Memory.fetchWord_writeBytes_bytesOfWord {m : Memory} (hm : Memory.wf m) (a : Nat)
    (op : Word) : Memory.fetchWord (Memory.writeBytes m a (bytesOfWord op)) a = op := by
  have hi := Memory.read_writeBytes_same hm.1 a (bytesOfWord op) 0 Nat.zero_lt_two
  have lo := Memory.read_writeBytes_same hm.1 a (bytesOfWord op) 1 Nat.one_lt_two
  exact (congrArg₂ wordOfBytes hi lo).trans (wordOfBytes_extract op)

theorem State.fetchable_placeWord (s : State) (op : Word) : (s.placeWord op).fetchable = true := by
  rw [State.fetchable_iff]
  by_cases hf : s.fetchable = true
  · simpa [State.placeWord, hf] using State.fetchable_iff.1 hf
  · simp [State.placeWord, hf, Config.progBase]

theorem State.fetched_placeWord {s : State} (hm : Memory.wf s.mem) (op : Word) :
    (s.placeWord op).fetched = op :=
  Memory.fetchWord_writeBytes_bytesOfWord hm _ op

theorem State.withFetchWord_sixteen (s : State) (w : Nat) :
    s.withFetchWord 16 w = s.placeWord (BitVec.ofNat 16 w) := by
  exact congrArg s.placeWord (BitVec.eq_of_toNat_eq (by simp))

/-! ## The read-outs (60 R276, R286, R288) -/

theorem State.stActive_iff (s : State) : s.stActive = true ↔ 0 < s.st.toNat :=
  decide_eq_true_iff

theorem State.bitmap_getElem? (s : State) {py px : Nat} (hy : py < 32) (hx : px < 64) :
    s.bitmap[py]?.bind (fun row => row[px]?) = some (Framebuffer.pixel s.fb px py) := by
  simp [State.bitmap, hy, hx]

theorem State.memoryDump_getElem? (s : State) {k : Nat} (hk : k < 2048) :
    s.memoryDump[k]? = some (2 * k, Memory.fetchWord s.mem (2 * k)) := by
  simp [State.memoryDump, Config.memSize, hk]

theorem State.registerDump_getElem? (s : State) (r : Reg) :
    s.registerDump[r.toNat]? = some (r.toNat, s.reg r) := by
  simp [State.registerDump, r.isLt]

end Sys2Proof.Machine
end

section
/-! PROOFS. The statements about errors, timers and the host's transactions (60). -/

namespace Sys2Proof.Proofs

open Sys2Proof.Machine Sys2Proof.Safety Sys2Proof.Claim

/-- Settles O18, by induction over the events: each of them keeps both invariants. -/
theorem everyInterleavingKeepsTheInvariants : Obligations.EveryInterleavingKeepsTheInvariants := by
  intro es
  induction es with
  | nil => rintro s t hs hp ⟨⟩; exact ⟨hs, hp⟩
  | cons e es ih =>
    intro s t hs hp h
    obtain ⟨u, hu, ht⟩ := actAll_cons_next h
    obtain ⟨hs', hp'⟩ := act_invariants hs hp hu
    exact ih u t hs' hp' ht

/-- Settles O12: besides the fetch fault and the decode error, a step takes only an error that its
instruction can take. -/
theorem onlyListedCausesAreReported : Obligations.OnlyListedCausesAreReported := by
  intro s t h hcause
  obtain ⟨-, ⟨hf, rfl⟩ | ⟨-, hwhy, rfl⟩ | ⟨-, i, hi, he⟩⟩ := interpret_cases h
  · exact .inl ⟨rfl, State.not_fetchable_iff.1 hf⟩
  · exact .inr (.inl ⟨rfl, hwhy⟩)
  · obtain ⟨t', ht', hcase⟩ := exec_cases i s.advance
    obtain rfl : t' = t := by simpa [ht'] using he
    rcases hcase with hst | ⟨c, rfl, hc⟩
    · exact absurd (congrArg Status.cause hst) hcause
    · simp only [hi, Decoded.instr.injEq]
      exact .inr (.inr hc.code_cases)

/-- Settles O58: the placed word is fetchable, on a core that is not halted, and the ticks change
nothing of that. -/
theorem placedWordRunsNext : Obligations.PlacedWordRunsNext := by
  intro s w i hm hd
  rw [State.withFetchWord_sixteen]
  have hf := s.fetchable_placeWord (BitVec.ofNat 16 w)
  have hw := State.fetched_placeWord hm (BitVec.ofNat 16 w)
  exact interpret_of_instr (s := (s.placeWord (BitVec.ofNat 16 w)).passTime) rfl hf
    ((congrArg decode hw).trans hd)

/-- Settles O54, from the value of a timer after one tick. -/
theorem tickDecrementsOneTimer : Obligations.TickDecrementsOneTimer :=
  fun s => ⟨⟨s.tickDelay, rfl, rfl, tickValue_toNat_add_one, tickValue_of_zero⟩,
    ⟨s.tickSound, rfl, rfl, tickValue_toNat_add_one, tickValue_of_zero⟩⟩

/-- Settles O56: an accepted image is one store at 0x200. -/
theorem loadCopiesTheImage : Obligations.LoadCopiesTheImage := by
  intro s bytes
  refine ⟨s.load_of_gt, fun hlen hm => ⟨_, s.load_of_le hlen, ?_, ?_⟩⟩
  · exact Memory.read_writeBytes_same hm.1 0x200 bytes
  · exact onlyStored_storeBytes s 0x200 bytes

/-- Settles O59, from what each read-out lists. -/
theorem outputsShowTheState : Obligations.OutputsShowTheState := by
  intro s
  refine ⟨s.stActive_iff, rfl, ?_, fun _ _ => s.bitmap_getElem?, ?_, fun _ => s.memoryDump_getElem?,
    ?_, s.registerDump_getElem?⟩
  · simp [State.bitmap]
  · simp [State.memoryDump, Config.memSize]
  · simp [State.registerDump]

end Sys2Proof.Proofs
end

section
/-! SUPPORT. A core at a jump to itself, and a core whose image has just been loaded (70 R303,
R306). -/

namespace Sys2Proof.Machine

/-! ## A jump to itself (70 R306) -/

theorem State.finished_iff {s : State} :
    s.finished = true ↔
      s.status.halted = false ∧ s.pc.toNat ≤ 0xFFE ∧ s.fetched = 0x1000 ||| s.pc := by
  simp [State.finished, and_assoc]

theorem addrOf_setWidth_of_lt {w : Word} (h : w.toNat < 2 ^ 12) : addrOf (w.setWidth 12) = w := by
  apply BitVec.eq_of_toNat_eq
  rw [addrOf_toNat, BitVec.toNat_setWidth, Nat.mod_eq_of_lt h]

/-- Within the 12 bits of an address the `or` of 70 R306 meets no set bit, so it is the sum that
encodes the jump. -/
theorem or_eq_encode_jmp {w : Word} (h : w.toNat < 2 ^ 12) :
    0x1000 ||| w = encode (.jmp (w.setWidth 12)) := by
  apply BitVec.eq_of_toNat_eq
  calc (0x1000 ||| w).toNat
    _ = 2 ^ 12 * 1 + w.toNat := (Nat.two_pow_add_eq_or_of_lt h 1).symm
    _ = 4096 * (0x1#4).toNat + (w.setWidth 12).toNat := by
      rw [BitVec.toNat_setWidth, Nat.mod_eq_of_lt h]; rfl
    _ = (ofA 0x1 (w.setWidth 12)).toNat := (ofA_toNat _ _).symm

/-- The step of a finished core advances pc and jumps back. -/
theorem interpret_of_finished {s : State} (h : s.finished = true) :
    interpret s = .next (s.advance.setPc s.pc) := by
  obtain ⟨hh, hpc, hw⟩ := State.finished_iff.1 h
  have hlt : s.pc.toNat < 2 ^ 12 := by omega
  have hd : decode s.fetched = .instr (.jmp (s.pc.setWidth 12)) := by
    rw [hw, or_eq_encode_jmp hlt, decode_encode]
  calc interpret s
    _ = exec (.jmp (s.pc.setWidth 12)) s.advance :=
      interpret_of_instr hh (State.fetchable_iff.2 (by omega)) hd
    _ = .next (s.advance.setPc (addrOf (s.pc.setWidth 12))) := exec_of_checkOf_none rfl
    _ = .next (s.advance.setPc s.pc) := by rw [addrOf_setWidth_of_lt hlt]

/-! ## The first step after a load (60 R271, 70 R303) -/

theorem State.load_eq_ok {s t : State} {bytes : List Byte} (h : s.load bytes = (.ok, t)) :
    t = s.storeBytes 0x200 bytes := by
  by_cases hlen : bytes.length ≤ 3584
  · exact (congrArg Prod.snd ((s.load_of_le hlen).symm.trans h)).symm
  · cases (s.load_of_gt (Nat.not_le.1 hlen)).symm.trans h

theorem Memory.fetchWord_writeBytes_cons_cons {m : Memory} (hm : Memory.wf m) (a : Nat)
    (hi lo : Byte) (rest : List Byte) :
    Memory.fetchWord (Memory.writeBytes m a (hi :: lo :: rest)) a = hi ++ lo := by
  have h0 := Memory.read_writeBytes_same hm.1 a (hi :: lo :: rest) 0 (by simp)
  have h1 := Memory.read_writeBytes_same hm.1 a (hi :: lo :: rest) 1 (by simp)
  exact congrArg₂ wordOfBytes h0 h1

@[simp] theorem tickMany_idle (n : Nat) : tickMany n 0 = 0 := by
  apply BitVec.eq_of_toNat_eq
  rw [tickMany_toNat]
  exact Nat.zero_sub n

/-- Ticks change nothing while both timers are idle. -/
theorem State.passTime_of_idle {s : State} (hd : s.dt = 0) (hs : s.st = 0) : s.passTime = s := by
  have hd' : s.passTime.dt = s.dt := by rw [State.passTime_dt, hd, tickMany_idle]
  have hs' : s.passTime.st = s.st := by rw [State.passTime_st, hs, tickMany_idle]
  calc s.passTime
    _ = { s with dt := s.passTime.dt, st := s.passTime.st } := rfl
    _ = s := by rw [hd', hs']

end Sys2Proof.Machine
end

section
/-! PROOFS. The statements about reset and the run conventions (70). -/

namespace Sys2Proof.Proofs

open Sys2Proof.Machine

/-- Settles O14: the jump takes the advanced pc back, so the same word is fetched again. -/
theorem finishedCoreStaysFinished : Obligations.FinishedCoreStaysFinished := by
  intro s h
  have hfin : (s.advance.setPc s.pc).finished = true :=
    State.finished_iff.2 (State.finished_iff.1 h)
  exact ⟨_, interpret_of_finished h, rfl, hfin⟩

/-- Settles O57: after `Reset()` the timers are idle, so the step is `Step()` alone, and it fetches
at 0x200, where the image begins. -/
theorem firstStepRunsTheFirstImageWord : Obligations.FirstStepRunsTheFirstImageWord := by
  intro s t hi lo rest i hload hd
  obtain rfl := State.load_eq_ok hload
  have hw : (s.resetCore.storeBytes 0x200 (hi :: lo :: rest)).fetched = hi ++ lo :=
    Memory.fetchWord_writeBytes_cons_cons (m := []) (by simp [Memory.wf]) 0x200 hi lo rest
  rw [step, State.passTime_of_idle rfl rfl]
  exact interpret_of_instr rfl rfl ((congrArg decode hw).trans hd)

end Sys2Proof.Proofs
end
